-- ==== Sys2Proof/Word.lean ====
section
/-! DEFINITION. The word types of the HX-40: control words, link bytes, audio samples, sample numbers. -/

namespace Sys2Proof

/-- One byte of a link frame (R91). -/
abbrev Byte := BitVec 8

/-- One control word of 16 bits (R157). -/
abbrev Word16 := BitVec 16

/-- One 24-bit two's-complement audio sample (R1). -/
abbrev Sample := BitVec 24

/-- A sample number: a 32-bit count of received samples that wraps (R2). -/
abbrev SampleNumber := BitVec 32

/-- A station number, 0 to 7 (Terms). -/
abbrev Station := Fin 8

/-- The index of a harmony voice, 0 to 7 (Terms). -/
abbrev VoiceIx := Fin 8

/-- One of the four output buses, 0 for A to 3 for D (Terms). -/
abbrev BusIx := Fin 4

end Sys2Proof
end

