-- ==== Sys2Proof/Syntax.lean ====
section
/-! DEFINITION. The commands of the HX-40: one constructor per row of spec/opcode_table.json, with their operands. -/

namespace Sys2Proof

/-- The four strap pins sampled at release of a power-on or pin reset (R167). -/
structure Straps where
  station : Station
  solo : Bool
  deriving DecidableEq, Repr

/-- What a power-on reset does: it is held from the rise of the supplies until they are valid, and ends then with the straps
as they are sampled (R167, log 13). -/
inductive PowerOnPhase where
  | rise
  | valid (straps : Straps)
  deriving DecidableEq, Repr

/-- A place within one hop event at which a block whose order the spec leaves open may be taken:
before the Context Unit, after it, after the link controller's hop work, or after the planner (R40, R81, R165). -/
inductive Place where
  | beforeContext
  | afterContext
  | afterLink
  | afterPlanner
  deriving DecidableEq, Repr

/-- The orders that one hop event leaves open, "either may be taken first": where the Peer Table ages its records
(R40, R81, R124) and where the State Controller looks for a voiced onset (R165). Log 4. -/
structure HopOrder where
  ageing : Place
  onset : Place
  deriving DecidableEq, Repr

/-- What a read-clear command does: the capture after the eighth header bit, the completion at the rise of CSEL,
or both with nothing between them (R158). Log 6. -/
inductive ReadPhase where
  | whole
  | capture
  | complete
  deriving DecidableEq, Repr

/-- The six bytes of a link frame, byte 0 the arbitration value and byte 5 the CRC (R93, R95). -/
structure LinkFrame where
  b0 : Byte
  b1 : Byte
  b2 : Byte
  b3 : Byte
  b4 : Byte
  b5 : Byte
  deriving DecidableEq, Repr

/-- What the receiver meets of a frame (R92): one of the three ends of a taking, named as a whole, or the levels of the pair
bit time by bit time, from which the receiver finds the bytes and the ends itself (log 27). -/
inductive Reception where
  /-- The pair went idle before the sixth byte was complete. -/
  | short
  /-- A stop bit was read dominant. -/
  | framingError
  /-- The sixth byte's stop bit was read recessive. -/
  | complete (f : LinkFrame)
  /-- The pair is read at one bit time after another, true for recessive (R91). -/
  | levels (bits : List Bool)
  deriving DecidableEq, Repr

/-- What the control port meets on CSEL and CSCK: the fall of CSEL, a CSCK clock with the level it samples on CSDI, and the
rise of CSEL (R157, R173). -/
inductive PortEvent where
  | fall
  | clock (bit : Bool)
  | rise
  deriving DecidableEq, Repr

/-- How a transaction named as a whole comes to be abandoned (R157). -/
inductive Abandonment where
  /-- CSEL rises after `nbits` bits with no reset since its fall, `bits` being the first 24 of them, bit 23 first. -/
  | count (nbits : Nat) (bits : BitVec 24)
  /-- A reset began while CSEL was low; CSEL rises after it. -/
  | byReset
  deriving DecidableEq, Repr

/-- The commands and events of the part, in the order of spec/opcode_table.json. The low byte of a COMMAND write is
carried by every command (`arg`), although only PIN reads it (R173). -/
inductive Instr where
  | powerOnReset (phase : PowerOnPhase)
  | pinReset (straps : Straps)
  | reset (data : Word16)
  | initCompletion
  | frameSync
  /-- `slot` is the 32 bits of slot 0, first bit most significant. `hopFirst` says whether a synced hop that falls due
  at this sample is taken before the engines' work for the same sample, and in which order (R69, R131, R133; log 4). -/
  | sampleReceived (slot : BitVec 32) (hopFirst : Option HopOrder)
  | epoch (v : VoiceIx)
  | grainEnd (v : VoiceIx)
  | attackComplete (v : VoiceIx)
  | fadeEnd (v : VoiceIx)
  | holdLimit (v : VoiceIx)
  /-- `leadFirst`: the LEAD offer of R109 reaches the queue before the DROP offers of R76 (R104; log 4). -/
  | syncLossEvent (leadFirst : Bool)
  | freeHop (order : HopOrder)
  | syncedHop (order : HopOrder)
  | holdLength
  | decisionHop
  | periodicLead
  | periodicKey
  | quietHello
  | returnToPrimary (v : VoiceIx)
  | firming (v : VoiceIx)
  | claimRefresh (v : VoiceIx)
  | claimAgeLimit (p : Station) (v : VoiceIx)
  | recordLimit (p : Station)
  | calibrateLong (arg : Byte)
  | calibrateShort (arg : Byte)
  | measurementCompletes
  | go (arg : Byte)
  | standby (arg : Byte)
  | wake (arg : Byte)
  | pin (arg : Byte)
  | unpin (arg : Byte)
  | clear (arg : Byte)
  | unknownCode (code : Byte) (arg : Byte)
  | keycfg (data : Word16)
  | enable (data : Word16)
  /-- A write of the ENABLE word that repeats every bit the word holds but MUTE, which it sets to `mute` (R152; log 7). -/
  | mute (mute : Bool)
  | attnMask (data : Word16)
  | attn (phase : ReadPhase)
  | context (phase : ReadPhase)
  | writeWord (addr : BitVec 6) (data : Word16)
  /-- The events of the port's lines, one after another, from which the port finds the captures and the ends of its transactions
  itself; then, if `ended` is given, a transaction abandoned as a whole (log 22). -/
  | transactionAbandoned (lines : List PortEvent) (ended : Option Abandonment)
  | startFrame
  /-- `winner` is byte 0 of the frame that goes on (R97). -/
  | lostArbitration (winner : Byte)
  | echoMismatch
  | frameSent
  | receiveFrame (rx : Reception)
  | stuck
  | returnToActive
  | pinResetAsserted
  deriving DecidableEq, Repr

end Sys2Proof
end

