-- ==== Sys2Proof/Decode.lean ====
section
/-! DEFINITION. The command that a word spells by the table's bits: no row of spec/opcode_table.json gives bits. -/

namespace Sys2Proof

/-- The commands of this block are no words: every row's "fields" is empty and none has "fixed" bits, so no word spells
a command. -/
def decodeTableWord (_nbits _w : Nat) : Option Instr := none

end Sys2Proof
end

