-- ==== Sys2Proof/Machine/Arith.lean ====
section
/-! DEFINITION. The exact arithmetic of the part: roundings, saturations, and the irrational values the manual asks for,
each decided by comparing whole numbers. -/

namespace Sys2Proof.Machine

/-- Conventions, "nearest, halves up": floor(num / den + 0.5) for den > 0. -/
def roundHalfUp (num : Int) (den : Nat) : Int := (2 * num + den) / (2 * den)

/-- Conventions, "nearest, halves away from zero" of num / den for den > 0 (R62). -/
def roundHalfAway (num : Int) (den : Nat) : Int :=
  if num < 0 then -((2 * -num + den) / (2 * den)) else (2 * num + den) / (2 * den)

/-- A value held within lo..hi. -/
def clampInt (lo hi x : Int) : Int := max lo (min hi x)

/-- A count held within lo..hi. -/
def clampNat (lo hi x : Nat) : Nat := max lo (min hi x)

/-- An error or event counter counts one event and saturates at 255 (Conventions). -/
def bump (n : Nat) : Nat := min 255 (n + 1)

/-- A signed value saturated to 24 bits, as a sample (R8, R143, R150). -/
def saturate24 (x : Int) : Sample := BitVec.ofInt 24 (clampInt (-8388608) 8388607 x)

/-- The distance from sample number a on to sample number b, b − a modulo 2^32 read as signed (Conventions). -/
def distance (a b : SampleNumber) : Int := (b - a).toInt

/-- The greatest number made of the low `bits` bits, above `acc`, that passes a test which holds up to some number and
fails beyond it, bit by bit from the top. -/
def greatest (test : Nat → Bool) : Nat → Nat → Nat
  | 0, acc => acc
  | bits + 1, acc => greatest test bits (if test (acc + 2 ^ bits) then acc + 2 ^ bits else acc)

/-- R9: floor(10 × log10(MS / 8388607²)) clamped to −144..0, from the sum of the 256 squares. The level is −n or more
exactly when (sum / (256 × 8388607²))^10 × 10^n is 1 or more. -/
def levelOf (sumSquares : Nat) : Int :=
  match (List.range 145).find? fun n => (256 * 8388607 ^ 2) ^ 10 ≤ sumSquares ^ 10 * 10 ^ n with
  | some n => -(n : Int)
  | none => -144

/-- R25: the lead cents of period P, floor(6900 + 1200 × log2(19200 / (11 × P)) + 0.5), that is
floor((13801 + 2400 × log2(19200 / (11 × P))) / 2). The inner floor is the floor of log2 of the 2400th power of the
ratio, a power that 2^9600 keeps above 1 for every P up to 27927. -/
def leadCents (p : Nat) : Int :=
  (13801 + ((Nat.log2 (19200 ^ 2400 * 2 ^ 9600 / (11 * p) ^ 2400) : Nat) : Int) - 9600) / 2

/-- R66: floor(P × 2^(−Δ / 1200) + 0.5) before the clamp. floor(2 × P × 2^(−Δ / 1200)) is the greatest n whose 1200th
power is at most (2 × P)^1200 × 2^(−Δ); 17 bits hold it up to twice the clamp of R66. -/
def synthesisPeriod (p : Nat) (shift : Int) : Nat :=
  (greatest (fun n => n ^ 1200 * 2 ^ shift.toNat ≤ (2 * p) ^ 1200 * 2 ^ (-shift).toNat) 17 0 + 1) / 2

/-- R149: the gain factor F of a gain code. floor(32768 × 10^((c − 128) / 40)) is the greatest n whose 40th power is at
most 32768^40 × 10^(c − 128). -/
def gainFactor (code : Nat) : Nat :=
  if code = 0 then 0
  else (greatest (fun n => n ^ 40 * 10 ^ 128 ≤ 32768 ^ 40 * 10 ^ code) 17 0 + 1) / 2

/-- π to 50 decimals, times 10^50. -/
def piScaled : Nat := 314159265358979323846264338327950288419716939937510

/-- The sum of `n` terms of the series of cos, scaled by 2^128: term i is `term`, and each further one is the last times
x² over (2i + 1)(2i + 2) with its sign turned. -/
def cosSeries (x2 : Int) : Nat → Nat → Int → Int
  | 0, _, _ => 0
  | n + 1, i, term => term + cosSeries x2 n (i + 1) (-(term * x2 / 2 ^ 128) / ((2 * i + 1) * (2 * i + 2)))

/-- cos(π × j / Pm) × 2^128 for 0 ≤ 2j ≤ Pm, to within 2^−118 (log 9). -/
def cosScaled (j pm : Nat) : Int :=
  cosSeries ((piScaled ^ 2 * j ^ 2 * 2 ^ 128 / (pm ^ 2 * 10 ^ 100) : Nat) : Int) 26 0 (2 ^ 128)

/-- R141: the Hann coefficient w[k] = floor(32767 × (1 − cos(π × k / Pm)) / 2 + 0.5), 0 ≤ k < 2Pm. The window is symmetric
about k = Pm, cos is odd about Pm / 2, and at Pm / 2 itself the value is the half 16383.5, rounded up. -/
def hann (pm k : Nat) : Int :=
  let j := if k ≤ pm then k else 2 * pm - k
  if 2 * j = pm then 16384
  else if 2 * j < pm then roundHalfUp (32767 * (2 ^ 128 - cosScaled j pm)) (2 ^ 129)
  else roundHalfUp (32767 * (2 ^ 128 + cosScaled (pm - j) pm)) (2 ^ 129)

end Sys2Proof.Machine
end

