-- ==== Sys2Proof/Config.lean ====
section
/-! DEFINITION. What a unit of the HX-40 fixes for good, and the two inputs that the model's reset state needs. -/

namespace Sys2Proof.Config

/-- The IDENT word: family code 0x47 and revision 1 (R168, word map 0x00). -/
def ident : Word16 := 0x4701

/-- DESIGN CHOICE (log 1), unsafe: the station strap sampled at the release that gives `State.reset`. -/
def resetStation : Station := 0

/-- DESIGN CHOICE (log 1), unsafe: the solo strap sampled at the release that gives `State.reset`. -/
def resetSolo : Bool := false

end Sys2Proof.Config
end

