-- ==== Sys2Proof/Machine/State.lean ====
section
/-! DEFINITION. The state of one HX-40, block by block as the manual names it, its values after reset, and the reasons a
step can stop. -/

namespace Sys2Proof.Machine

/-- The reasons the machine stops with a fault: none. The manual gives every command and event an effect in every state
and never stops the part, so no meaning raises a fault (safe). -/
inductive Fault where
  deriving DecidableEq, Repr

/-- The reasons a command is turned away by the model. -/
inductive Refusal where
  /-- Raised by an arm of `exec` whose command has no meaning yet; safe (a stop where the part goes on). No arm raises it. -/
  | notModelled (mnemonic : String)
  deriving DecidableEq, Repr

/-! ## Modes and kinds -/

/-- The part state (10.2). -/
inductive PartState where
  | init
  | setup
  | calibrate
  | live
  | standby
  deriving DecidableEq, Repr

/-- The start cause: the kind of the last reset (R167). -/
inductive StartCause where
  | power
  | pin
  | word
  deriving DecidableEq, Repr

/-- The link state (6.5). -/
inductive LinkState where
  | solo
  | listen
  | active
  | stuck
  | muted
  deriving DecidableEq, Repr

/-- The state of a voice engine (8.1). -/
inductive VoiceState where
  | off
  | idle
  | onset
  | sound
  | hold
  | fade
  deriving DecidableEq, Repr

/-- The scale kind of a key (R44). -/
inductive ScaleKind where
  | major
  | minor
  | harmonic
  | mixolydian
  deriving DecidableEq, Repr

/-- A key: a key pitch class and a scale kind (Terms). -/
structure Key where
  pc : Fin 12
  kind : ScaleKind
  deriving DecidableEq, Repr

/-- The key mode; PINNED-PEER carries the pinning station, which no other mode has (3.6). -/
inductive KeyMode where
  | auto
  | pinnedLocal
  | pinnedPeer (station : Station)
  deriving DecidableEq, Repr

/-- The seven attention causes, most urgent first (R169). -/
inductive Cause where
  | link
  | sync
  | clip
  | peer
  | context
  | done
  | refused
  deriving DecidableEq, Repr

/-! ## Audio port, Input Stage, History Memory -/

/-- The audio port with the sync monitor and the hop clock (R1 to R7, R153). -/
structure AudioPort where
  /-- The monitor's state: SYNC PRESENT or SYNC LOST (R3). -/
  syncPresent : Bool
  /-- The monitor's 1 ms timer runs (R3). -/
  monitorTimer : Bool
  /-- The sample counter (R2). -/
  sampleCounter : SampleNumber
  /-- Samples received since the last synced hop; 256 while a synced hop is due (R6, log 5). -/
  hopCount : Nat
  /-- The free timer runs (R7). -/
  freeTimer : Bool
  /-- A frame has begun and its slot 0 is not complete (R1). -/
  slotOpen : Bool
  /-- The four samples the frame begun last sends over its first 128 bits; none while no frame is sent (R153 to R155).
  `AudioPort.asdo` gives the bits. -/
  sending : Option (Vector Sample 4)
  deriving DecidableEq, Repr

/-- A calibration measurement in progress (1.4.1). -/
structure Measurement where
  length : Nat
  sum : Int
  taken : Nat
  deriving DecidableEq, Repr

/-- The Input Stage (1.4). -/
structure InputStage where
  offset : Int
  calClamped : Bool
  calAborted : Bool
  level : Int
  measurement : Option Measurement
  deriving DecidableEq, Repr

/-- The History Memory (1.5): the ring as a list of (ring place, sample) pairs in canonical form, places strictly rising
and no sample 0, for a place that is not listed reads 0; W; and the fill count. -/
structure HistoryMemory where
  ring : List (Nat × Sample)
  newest : SampleNumber
  fill : Nat
  deriving DecidableEq, Repr

/-! ## Pitch Tracker and Context Unit -/

/-- The pitch record of one hop (2.1). -/
structure PitchRecord where
  voiced : Bool
  period : Nat
  confidence : Nat
  cents : Int
  level : Int
  deriving DecidableEq, Repr

/-- The last voiced pair: period and lead cents of the latest voiced record (R26). -/
structure VoicedPair where
  period : Nat
  cents : Int
  deriving DecidableEq, Repr

/-- A mark: a position in the history and the period of its hop (2.6). -/
structure Mark where
  pos : SampleNumber
  period : Nat
  deriving DecidableEq, Repr

/-- The Pitch Tracker; the mark list stands in ascending position (R29). -/
structure PitchTracker where
  record : PitchRecord
  lastVoiced : VoicedPair
  marks : List Mark
  prevVoiced : Bool
  deriving DecidableEq, Repr

/-- The Context Unit (chapter 3). -/
structure ContextUnit where
  held : Option Nat
  holdCount : Nat
  tally : Vector Nat 12
  decisionCount : Nat
  key : Key
  mode : KeyMode
  openDecision : Bool
  changed : Bool
  deriving DecidableEq, Repr

/-! ## Setup words common to the part -/

/-- One interval rule of the rule table (R52). -/
structure IntervalRule where
  primary : Int
  alternate : Int
  double : Bool
  follow : Nat
  glide : Nat
  deriving DecidableEq, Repr

/-- The KEYCFG word as held (R45). -/
structure KeyConfig where
  pinned : Bool
  key : Key
  deriving DecidableEq, Repr

/-- The setup words that belong to no one voice: GATE, VOICED with HOLDLIMIT, SNAP, SETTLE, REFRESH, KEYCFG, COLLIDE and
the rule table. -/
structure Setup where
  gate : Int
  voicedThreshold : Nat
  holdLimit : Nat
  snap : Nat
  settle : Nat
  refresh : Nat
  keycfg : KeyConfig
  collideClass : Bool
  rules : Vector IntervalRule 4
  deriving DecidableEq, Repr

/-! ## Voices -/

/-- A grain in flight (8): the source mark, the grain's next index and its remaining length. -/
structure Grain where
  mark : SampleNumber
  period : Nat
  index : Nat
  remaining : Nat
  deriving DecidableEq, Repr

/-- A local claim (5.1). -/
structure LocalClaim where
  note : Nat
  firm : Bool
  settle : Nat
  deriving DecidableEq, Repr

/-- The words of one voice: VOICECFG, LANE, VOICEGAIN and its bit of ENABLE (R53, R54, R129, R149). -/
structure VoiceConfig where
  rule : Fin 4
  bus : BusIx
  fadeOnLoss : Bool
  attack : Nat
  release : Nat
  laneLow : Nat
  laneSpan : Nat
  gain : Nat
  enabled : Bool
  deriving DecidableEq, Repr

/-- The planning part of the voice table: working values of 4.2, the claim part of 5.1 and the refresh count of R77. -/
structure VoicePlan where
  primary : Option Nat
  alternate : Option Nat
  decided : Option Nat
  cents : Int
  shift : Int
  period : Nat
  claim : Option LocalClaim
  onAlternate : Bool
  freeCount : Nat
  doubled : Bool
  refreshCount : Nat
  deriving DecidableEq, Repr

/-- A voice engine (8); grains stand in order of start. -/
structure Engine where
  state : VoiceState
  disablePending : Bool
  envelope : Nat
  epoch : Int
  reload : Nat
  holdTimer : Nat
  grains : List Grain
  starve : Nat
  cut : Nat
  rangeClamp : Bool
  clip : Bool
  deriving DecidableEq, Repr

/-- One harmony voice: its words, its planning part and its engine. -/
structure Voice where
  cfg : VoiceConfig
  plan : VoicePlan
  eng : Engine
  deriving DecidableEq, Repr

/-! ## Ensemble Link Controller and Peer Table -/

/-- An entry of the transmit queue with its stored fields (6.6). -/
inductive Entry where
  | drop (voice : VoiceIx)
  | claim (voice : VoiceIx) (firm : Bool) (rule : Fin 4) (note : Nat)
  | lead
  | key
  | hello (fresh : Bool)
  deriving DecidableEq, Repr

/-- The transmit slot when it is not empty: the entry being sent, the number of queued entries older than it (its former
place in the age order, R97), and the frame built at the start (R94). -/
structure TxSlot where
  entry : Entry
  place : Nat
  frame : LinkFrame
  deriving DecidableEq, Repr

/-- What the receiver does (R92). -/
inductive Receiver where
  /-- The pair is idle; the next dominant level is a start bit. -/
  | ready
  /-- A frame is being taken: its bytes read so far stand in `rxBytes`, and `since` holds the levels read after the eighth
  bit of the last of them, or from the first start bit on when there is none. -/
  | taking (since : List Bool := [])
  /-- The receiver waits for the pair to be idle, or follows it in INIT or while the station sends, and has met `run` recessive
  bits in a row. -/
  | waitIdle (run : Nat := 0)
  deriving DecidableEq, Repr

/-- What the stuck monitor times (R103). -/
inductive StuckMonitor where
  | off
  | dominant
  | recessive
  deriving DecidableEq, Repr

/-- The Ensemble Link Controller; the queue stands oldest first. The refresh counts stand with the voices. -/
structure LinkController where
  state : LinkState
  queue : List Entry
  slot : Option TxSlot
  receiver : Receiver
  rxBytes : List Byte
  leadCount : Nat
  keyCount : Nat
  quietCount : Nat
  lastVoiced : Bool
  stuckMonitor : StuckMonitor
  rxCrc : Nat
  echo : Nat
  queueDrops : Nat
  deriving DecidableEq, Repr

/-- The lead part of a peer record (7.1). -/
structure PeerLead where
  voiced : Bool
  held : Option Nat
  confidence : Nat
  age : Nat
  deriving DecidableEq, Repr

/-- The key report of a peer record, as received (7.1). -/
structure KeyReport where
  pc : Nat
  kind : Nat
  pinned : Bool
  deriving DecidableEq, Repr

/-- A claim record of a peer record (7.1). -/
structure PeerClaim where
  note : Nat
  firm : Bool
  age : Nat
  deriving DecidableEq, Repr

/-- A peer record; its station number is its place in the table (R114). -/
structure PeerRecord where
  silence : Nat
  lead : Option PeerLead
  keyReport : Option KeyReport
  claims : Vector (Option PeerClaim) 8
  resting : Bool
  deriving DecidableEq, Repr

/-! ## Bus Mixer and State Controller -/

/-- One bus of the mixer: its gain code, clip state and clip counter (chapter 9). -/
structure Bus where
  gain : Nat
  clipState : Bool
  clipCount : Nat
  deriving DecidableEq, Repr

/-- The Bus Mixer. The bus map and the voice gain codes stand with the voices. -/
structure BusMixer where
  buses : Vector Bus 4
  mute : Bool
  tx : Vector Sample 4
  deriving DecidableEq, Repr

/-- A read-clear read between its capture and its completion, with what its completion will clear: the captured causes
not raised again since, or the context-changed flag unless a change was made since (R158, R170, R51). -/
inductive Capture where
  | attn (clears : BitVec 7)
  | context (clears : Bool)
  deriving DecidableEq, Repr

/-- The Control Port and State Controller (chapter 10). -/
structure StateController where
  part : PartState
  cause : StartCause
  station : Station
  solo : Bool
  /-- The pending set, bit n for priority number n + 1 (R169). -/
  causes : BitVec 7
  /-- The mask, 1 for masked (R169). -/
  mask : BitVec 7
  liveEntry : Bool
  wakeOnVoice : Bool
  /-- The read-clear read in progress on the control port (R158). -/
  capture : Option Capture
  /-- The word the port captured last, the one it shifts out on CSDO (R158). -/
  shiftOut : Word16
  /-- The bits taken since the fall of CSEL, oldest first, while a transaction is being taken (R157, R173). -/
  port : Option (List Bool)
  /-- RSTN is low: a pin reset is held (R167). -/
  pinHeld : Bool
  /-- The supplies are not yet valid: a power-on reset is held (R167). -/
  powerOnHeld : Bool
  /-- A power-on reset has occurred since the last release (R167). -/
  powerOnSeen : Bool
  deriving DecidableEq, Repr

/-- The whole part, and the queue of the commands that wait, first in first out. -/
structure State where
  ap : AudioPort
  inp : InputStage
  hm : HistoryMemory
  pt : PitchTracker
  cu : ContextUnit
  cfg : Setup
  voices : Vector Voice 8
  link : LinkController
  peers : Vector (Option PeerRecord) 8
  bm : BusMixer
  sc : StateController
  pending : List Instr
  deriving DecidableEq, Repr

/-! ## Values after reset -/

/-- R5, R6, R7: the audio port after any reset; the free timer starts at release. -/
def AudioPort.reset : AudioPort where
  syncPresent := false
  monitorTimer := false
  sampleCounter := 0
  hopCount := 0
  freeTimer := true
  slotOpen := false
  sending := none

/-- 1.4: the Input Stage after any reset. -/
def InputStage.reset : InputStage where
  offset := 0
  calClamped := false
  calAborted := false
  level := -144
  measurement := none

/-- R16: the History Memory after any reset. -/
def HistoryMemory.reset : HistoryMemory where
  ring := []
  newest := 0
  fill := 0

/-- R26, R27, R29: the Pitch Tracker after any reset. -/
def PitchTracker.reset : PitchTracker where
  record := { voiced := false, period := 9600, confidence := 0, cents := 3949, level := -144 }
  lastVoiced := { period := 9600, cents := 3949 }
  marks := []
  prevVoiced := false

/-- C MAJOR, the key after any reset (R45). -/
def Key.cMajor : Key := { pc := 0, kind := .major }

/-- 3.7: the Context Unit after any reset. -/
def ContextUnit.reset : ContextUnit where
  held := none
  holdCount := 0
  tally := Vector.replicate 12 0
  decisionCount := 0
  key := Key.cMajor
  mode := .auto
  openDecision := false
  changed := false

/-- R52: the rule table after any reset. -/
def IntervalRule.resetTable : Vector IntervalRule 4 :=
  #v[{ primary := 2, alternate := 4, double := false, follow := 100, glide := 0 },
     { primary := -2, alternate := -3, double := false, follow := 100, glide := 0 },
     { primary := 4, alternate := 2, double := false, follow := 100, glide := 0 },
     { primary := -3, alternate := -5, double := false, follow := 100, glide := 0 }]

/-- The setup words after any reset (word map 0x0C to 0x1A, R133). -/
def Setup.reset : Setup where
  gate := -50
  voicedThreshold := 160
  holdLimit := 48
  snap := 60
  settle := 8
  refresh := 32
  keycfg := { pinned := false, key := Key.cMajor }
  collideClass := false
  rules := IntervalRule.resetTable

/-- R53, R54, R129, R148, R149: the words of voice v after any reset. -/
def VoiceConfig.reset (v : VoiceIx) : VoiceConfig where
  rule := ⟨v.val % 4, Nat.mod_lt _ (by decide)⟩
  bus := ⟨v.val % 4, Nat.mod_lt _ (by decide)⟩
  fadeOnLoss := false
  attack := 4
  release := 16
  laneLow := 48
  laneSpan := 24
  gain := 128
  enabled := false

/-- R70, R72, R77: the planning part of a voice after any reset. -/
def VoicePlan.reset : VoicePlan where
  primary := none
  alternate := none
  decided := none
  cents := 3949
  shift := 0
  period := 9600
  claim := none
  onAlternate := false
  freeCount := 0
  doubled := false
  refreshCount := 0

/-- R147: a voice engine after any reset. -/
def Engine.reset : Engine where
  state := .off
  disablePending := false
  envelope := 0
  epoch := 0
  reload := 9600
  holdTimer := 0
  grains := []
  starve := 0
  cut := 0
  rangeClamp := false
  clip := false

/-- Voice v after any reset. -/
def Voice.reset (v : VoiceIx) : Voice where
  cfg := VoiceConfig.reset v
  plan := VoicePlan.reset
  eng := Engine.reset

/-- R102, R113: the link controller after any reset, by the latched solo strap. -/
def LinkController.reset (solo : Bool) : LinkController where
  state := if solo then .solo else .listen
  queue := []
  slot := none
  receiver := .waitIdle
  rxBytes := []
  leadCount := 0
  keyCount := 0
  quietCount := 0
  lastVoiced := false
  stuckMonitor := .off
  rxCrc := 0
  echo := 0
  queueDrops := 0

/-- R156: the Bus Mixer after any reset. -/
def BusMixer.reset : BusMixer where
  buses := Vector.replicate 4 { gain := 128, clipState := false, clipCount := 0 }
  mute := true
  tx := Vector.replicate 4 0

/-- R160, R167, R169: the State Controller at release of a reset of the given kind, with the latched straps. The pending
set is empty and the mask leaves all causes but REFUSED unmasked. -/
def StateController.reset (cause : StartCause) (straps : Straps) : StateController where
  part := .init
  cause := cause
  station := straps.station
  solo := straps.solo
  causes := 0
  mask := 0x40
  liveEntry := false
  wakeOnVoice := false
  capture := none
  shiftOut := 0
  port := none
  pinHeld := false
  powerOnHeld := false
  powerOnSeen := false

/-- Every block at its reset values, at release of a reset of the given kind with the given straps latched (R167). The
queue of waiting commands is no part of the HX-40 and is left to the caller. -/
def State.atReset (cause : StartCause) (straps : Straps) (pending : List Instr) : State where
  ap := AudioPort.reset
  inp := InputStage.reset
  hm := HistoryMemory.reset
  pt := PitchTracker.reset
  cu := ContextUnit.reset
  cfg := Setup.reset
  voices := Vector.ofFn Voice.reset
  link := LinkController.reset straps.solo
  peers := Vector.replicate 8 none
  bm := BusMixer.reset
  sc := StateController.reset cause straps
  pending := pending

/-- The machine right after release of a power-on reset (R160, R167) with the straps of Config (log 1), no command waiting. -/
def State.reset : State :=
  State.atReset .power { station := Config.resetStation, solo := Config.resetSolo } []

end Sys2Proof.Machine
end

