-- ==== Sys2Proof/Machine/Operands.lean ====
section
/-! DEFINITION. The layouts of chapter 11: codes, link frames with their CRC, and the fields of the control words with their
clamps (R93, R95, R172, R174). -/

namespace Sys2Proof.Machine

/-! ## Link frames -/

/-- The rank of an entry's kind, which is its kind code: DROP first, HELLO last (R93, R106). -/
def Entry.rank : Entry → Nat
  | .drop _ => 0
  | .claim .. => 1
  | .lead => 2
  | .key => 3
  | .hello _ => 4

/-- R93: the arbitration value 8 × kind + station. -/
def arbitrationValue (kind : Nat) (station : Station) : Byte := BitVec.ofNat 8 (8 * kind + station.val)

/-- A byte from its number, for fields that fit it. -/
def byteOf (n : Nat) : Byte := BitVec.ofNat 8 n

/-- The weight of a flag at a bit position. -/
def flagAt (b : Bool) (bit : Nat) : Nat := if b then 2 ^ bit else 0

/-- R95: one bit through the CRC register, generator x^8 + x^2 + x + 1. -/
def crcBit (reg : Byte) (bit : Bool) : Byte := if reg.msb != bit then (reg <<< 1) ^^^ 0x07 else reg <<< 1

/-- One byte through the CRC register, most significant bit first (R95). -/
def crcByte (reg : Byte) (b : Byte) : Byte :=
  [7, 6, 5, 4, 3, 2, 1, 0].foldl (fun r i => crcBit r (b.getLsbD i)) reg

/-- R95: the CRC over bytes 0 to 4, from 0xFF with no final inversion. -/
def crcOf (b0 b1 b2 b3 b4 : Byte) : Byte := [b0, b1, b2, b3, b4].foldl crcByte 0xFF

/-- A frame from its first five bytes, the CRC computed when the frame is built (R95). -/
def frameOf (b0 b1 b2 b3 b4 : Byte) : LinkFrame where
  b0 := b0
  b1 := b1
  b2 := b2
  b3 := b3
  b4 := b4
  b5 := crcOf b0 b1 b2 b3 b4

/-! ## Levels on the pair -/

/-- R91: the level of the pair, true for recessive, from the levels the stations drive at one bit time: any dominant one makes
it dominant, and it is recessive when none drives it. -/
def pairLevel (driven : List Bool) : Bool := driven.all id

/-- R91: the ten levels of one byte: a dominant start bit, the eight bits most significant first, a recessive stop bit. -/
def byteLevels (b : Byte) : List Bool := false :: [7, 6, 5, 4, 3, 2, 1, 0].map b.getLsbD ++ [true]

/-- The number a run of bits spells, the first bit most significant (R91, R173). -/
def numberOfBits (bits : List Bool) : Nat := bits.foldl (fun n b => 2 * n + b.toNat) 0

/-- A byte from its eight levels, most significant first (R91). -/
def byteOfLevels (bits : List Bool) : Byte := byteOf (numberOfBits bits)

/-- R91: how many bits the pair has been recessive for when the given levels, oldest first, have been read. -/
def recessiveRun (levels : List Bool) : Nat := (levels.reverse.takeWhile id).length

/-- R91: the pair is idle from the 12th recessive bit in a row. -/
def idleRun : Nat := 12

/-- R153: the 32 bits of a slot, bit 31 sent first: the sample, then 8 zeros. -/
def slotBits (x : Sample) : BitVec 32 := x ++ (0 : BitVec 8)

/-- R153 to R155: what ASDO drives at bit `n` of the frame begun last: the four slots over the first 128 bits, and 0 after
them and while no frame is sent. -/
def AudioPort.asdo (a : AudioPort) (n : Nat) : Bool :=
  match a.sending with
  | some tx => if h : n < 128 then (slotBits tx[n / 32]).getLsbD (31 - n % 32) else false
  | none => false

/-- The code of a scale kind (R44). -/
def ScaleKind.code : ScaleKind → Nat
  | .major => 0
  | .minor => 1
  | .harmonic => 2
  | .mixolydian => 3

/-- The scale kind of a two-bit code (R44). -/
def ScaleKind.ofCode (n : Nat) : ScaleKind :=
  match n % 4 with
  | 0 => .major
  | 1 => .minor
  | 2 => .harmonic
  | _ => .mixolydian

/-- 11.1: a DROP frame. -/
def dropFrame (station : Station) (voice : VoiceIx) : LinkFrame :=
  frameOf (arbitrationValue 0 station) (byteOf voice.val) 0 0 0

/-- 11.1: a CLAIM frame. -/
def claimFrame (station : Station) (voice : VoiceIx) (firm : Bool) (rule : Fin 4) (note : Nat) : LinkFrame :=
  frameOf (arbitrationValue 1 station) (byteOf (voice.val + flagAt firm 4 + 32 * rule.val)) (byteOf note) 0 0

/-- 11.1: a LEAD frame; the held note goes as 0 when there is none. -/
def leadFrame (station : Station) (rec : PitchRecord) (held : Option Nat) : LinkFrame :=
  frameOf (arbitrationValue 2 station) (byteOf (flagAt rec.voiced 7 + held.getD 0 % 128))
    (byteOf (rec.cents.toNat / 256)) (byteOf (rec.cents.toNat % 256)) (byteOf rec.confidence)

/-- 11.1: a KEY frame; pinned is 1 only in PINNED-LOCAL (R51, R94). -/
def keyFrame (station : Station) (key : Key) (mode : KeyMode) : LinkFrame :=
  frameOf (arbitrationValue 3 station)
    (byteOf (key.pc.val + 16 * key.kind.code + flagAt (decide (mode = .pinnedLocal)) 7)) 0 0 0

/-- 11.1: a HELLO frame. -/
def helloFrame (station : Station) (fresh resting : Bool) : LinkFrame :=
  frameOf (arbitrationValue 4 station) (byteOf (flagAt fresh 0 + flagAt resting 1)) 0 0 0

/-- R94: the frame built from an entry at its start, from the state at that moment. -/
def buildFrame (s : State) : Entry → LinkFrame
  | .drop v => dropFrame s.sc.station v
  | .claim v firm rule note => claimFrame s.sc.station v firm rule note
  | .lead => leadFrame s.sc.station s.pt.record s.cu.held
  | .key => keyFrame s.sc.station s.cu.key s.cu.mode
  | .hello fresh => helloFrame s.sc.station fresh (decide (s.sc.part = .standby))

/-! ## Fields of control words -/

/-- The bits of a word from `low` up, `width` of them, as a number. -/
def field (w : Word16) (low width : Nat) : Nat := w.toNat / 2 ^ low % 2 ^ width

/-- A signed field in two's complement (11.4). -/
def signedField (w : Word16) (low width : Nat) : Int :=
  let x := field w low width
  if x < 2 ^ (width - 1) then x else (x : Int) - 2 ^ width

/-- A signed value put into a field of a width. -/
def toField (x : Int) (width : Nat) : Nat := (x % (2 ^ width : Nat)).toNat

/-- A word from the sum of its placed fields. -/
def wordOf (n : Nat) : Word16 := BitVec.ofNat 16 n

/-- R45: the KEYCFG word as held: a key of 12 to 15 is held as 11, and with AUTO the scale kind is held as MAJOR. -/
def keyConfigOf (w : Word16) : KeyConfig where
  pinned := w.getLsbD 6
  key :=
    { pc := ⟨min 11 (field w 0 4), by omega⟩
      kind := if w.getLsbD 6 then ScaleKind.ofCode (field w 4 2) else .major }

/-- KEYCFG as it reads back (11.4). -/
def KeyConfig.word (k : KeyConfig) : Word16 :=
  wordOf (k.key.pc.val + 16 * k.key.kind.code + flagAt k.pinned 6)

/-- R52, R174: a RULE A word taken into a rule. -/
def IntervalRule.withA (r : IntervalRule) (w : Word16) : IntervalRule :=
  { r with
    primary := clampInt (-14) 14 (signedField w 0 5)
    alternate := clampInt (-14) 14 (signedField w 5 5)
    double := w.getLsbD 10 }

/-- R52, R174: a RULE B word taken into a rule; the GLIDE field is in units of 5 cents. -/
def IntervalRule.withB (r : IntervalRule) (w : Word16) : IntervalRule :=
  { r with follow := min 100 (field w 0 7), glide := 5 * min 240 (field w 8 8) }

/-- The RULE A word as it reads back (11.4). -/
def IntervalRule.wordA (r : IntervalRule) : Word16 :=
  wordOf (toField r.primary 5 + 32 * toField r.alternate 5 + flagAt r.double 10)

/-- The RULE B word as it reads back (11.4). -/
def IntervalRule.wordB (r : IntervalRule) : Word16 := wordOf (r.follow + 256 * (r.glide / 5))

/-- R54, R174: a LANE word taken into a voice's words. -/
def VoiceConfig.withLane (c : VoiceConfig) (w : Word16) : VoiceConfig :=
  { c with laneLow := clampNat 28 96 (field w 0 8), laneSpan := clampNat 12 36 (field w 8 6) }

/-- The LANE word as it reads back (11.4). -/
def VoiceConfig.laneWord (c : VoiceConfig) : Word16 := wordOf (c.laneLow + 256 * c.laneSpan)

/-- R53, R174: a VOICECFG word taken into a voice's words; the RELEASE field holds RELEASE minus 1. -/
def VoiceConfig.withCfg (c : VoiceConfig) (w : Word16) : VoiceConfig :=
  { c with
    rule := ⟨field w 0 2, Nat.mod_lt _ (by decide)⟩
    bus := ⟨field w 2 2, Nat.mod_lt _ (by decide)⟩
    fadeOnLoss := w.getLsbD 4
    attack := clampNat 1 16 (field w 5 5)
    release := field w 10 6 + 1 }

/-- The VOICECFG word as it reads back (11.4). -/
def VoiceConfig.cfgWord (c : VoiceConfig) : Word16 :=
  wordOf (c.rule.val + 4 * c.bus.val + flagAt c.fadeOnLoss 4 + 32 * c.attack + 1024 * (c.release - 1))

/-- R149: a gain code above 152 is held as 152. -/
def gainCodeOf (w : Word16) : Nat := min 152 (field w 0 8)

/-- The code of a part state (11.4). -/
def PartState.code : PartState → Nat
  | .init => 0
  | .setup => 1
  | .calibrate => 2
  | .live => 3
  | .standby => 4

/-- The code of a start cause (11.4). -/
def StartCause.code : StartCause → Nat
  | .power => 0
  | .pin => 1
  | .word => 2

/-- The code of a link state (11.4). -/
def LinkState.code : LinkState → Nat
  | .solo => 0
  | .listen => 1
  | .active => 2
  | .stuck => 3
  | .muted => 4

/-- The code of a key mode in CONTEXT (11.4). -/
def KeyMode.code : KeyMode → Nat
  | .auto => 0
  | .pinnedLocal => 1
  | .pinnedPeer _ => 2

/-- The pinning station as CONTEXT shows it: 0 unless the mode is PINNED-PEER (R51). -/
def KeyMode.stationShown : KeyMode → Nat
  | .pinnedPeer p => p.val
  | _ => 0

/-- The code of a voice state (11.4). -/
def VoiceState.code : VoiceState → Nat
  | .off => 0
  | .idle => 1
  | .onset => 2
  | .sound => 3
  | .hold => 4
  | .fade => 5

/-- The commands of 10.3. -/
inductive Command where
  | go
  | calibrateShort
  | calibrateLong
  | standby
  | wake
  | pin
  | unpin
  | clear
  deriving DecidableEq, Repr

/-- The command of a code, or none for a code the table of 10.3 does not list (R173). -/
def commandOf (code : Byte) : Option Command :=
  match code.toNat with
  | 1 => some .go
  | 2 => some .calibrateShort
  | 3 => some .calibrateLong
  | 4 => some .standby
  | 5 => some .wake
  | 6 => some .pin
  | 7 => some .unpin
  | 8 => some .clear
  | _ => none

end Sys2Proof.Machine

namespace Sys2Proof

open Sys2Proof.Machine

/-! ## Reading a received frame -/

/-- R91: the six bytes of a frame in the order they are sent. -/
def LinkFrame.bytes (f : LinkFrame) : List Byte := [f.b0, f.b1, f.b2, f.b3, f.b4, f.b5]

/-- R91: the 60 levels of a frame on the pair. -/
def LinkFrame.levels (f : LinkFrame) : List Bool := f.bytes.flatMap byteLevels

/-- The frame of six bytes, in the order they came. -/
def LinkFrame.ofBytes : List Byte → Option LinkFrame
  | [b0, b1, b2, b3, b4, b5] => some { b0 := b0, b1 := b1, b2 := b2, b3 := b3, b4 := b4, b5 := b5 }
  | _ => none

/-- The CRC of a received frame passes when the sixth byte is the CRC of bytes 0 to 4 (R95). -/
def LinkFrame.crcPasses (f : LinkFrame) : Bool := f.b5 == crcOf f.b0 f.b1 f.b2 f.b3 f.b4

/-- R93: a received frame's kind. -/
def LinkFrame.kind (f : LinkFrame) : Nat := f.b0.toNat / 8

/-- R93: a received frame's station. -/
def LinkFrame.station (f : LinkFrame) : Station := ⟨f.b0.toNat % 8, Nat.mod_lt _ (by decide)⟩

/-- 11.1, R172: the voice field of a received DROP or CLAIM, 0..15. -/
def LinkFrame.voice (f : LinkFrame) : Nat := f.b1.toNat % 16

/-- R172: the firm field of a received CLAIM. -/
def LinkFrame.firm (f : LinkFrame) : Bool := f.b1.getLsbD 4

/-- R172: the note field of a received CLAIM. -/
def LinkFrame.note (f : LinkFrame) : Nat := f.b2.toNat

/-- R117, R172: the lead part a received LEAD brings, at age 0; a held note of 0 is none. -/
def LinkFrame.leadPart (f : LinkFrame) : PeerLead where
  voiced := f.b1.getLsbD 7
  held := if f.b1.toNat % 128 = 0 then none else some (f.b1.toNat % 128)
  confidence := f.b4.toNat
  age := 0

/-- R120, R172: the key report a received KEY brings. -/
def LinkFrame.keyPart (f : LinkFrame) : KeyReport where
  pc := f.b1.toNat % 16
  kind := f.b1.toNat / 16 % 8
  pinned := f.b1.getLsbD 7

/-- R172: the fresh field of a received HELLO. -/
def LinkFrame.fresh (f : LinkFrame) : Bool := f.b1.getLsbD 0

/-- R172: the resting field of a received HELLO. -/
def LinkFrame.restingBit (f : LinkFrame) : Bool := f.b1.getLsbD 1

end Sys2Proof
end

