-- ==== Sys2Proof/Machine/Flags.lean ====
section
/-! DEFINITION. The indications the part gives: the attention line and ATTN, the status words and every word as a read
captures it (R158, R168, R169, 11.4). -/

namespace Sys2Proof.Machine

/-- R167: a power-on or pin reset is held, until the later of the two ends. -/
def StateController.resetHeld (c : StateController) : Bool := c.pinHeld || c.powerOnHeld

/-- The bit of a cause in ATTN and ATTN_MASK, n for priority number n + 1 (11.4). -/
def Cause.index : Cause → Nat
  | .link => 0
  | .sync => 1
  | .clip => 2
  | .peer => 3
  | .context => 4
  | .done => 5
  | .refused => 6

/-- The pending set that holds one cause alone. -/
def Cause.bit (c : Cause) : BitVec 7 := 1#7 <<< c.index

/-- R169: the attention line is driven low while at least one pending cause is unmasked. -/
def State.attentionLow (s : State) : Bool := s.sc.causes &&& ~~~s.sc.mask != 0

/-- R170: the priority number of the most urgent pending cause, masked causes included, or 0 when none is pending. -/
def mostUrgent (causes : BitVec 7) : Nat :=
  match (List.range 7).find? fun i => causes.getLsbD i with
  | some i => i + 1
  | none => 0

/-- The ATTN word: the pending set and the priority number of its most urgent cause (11.4). -/
def State.attnWord (s : State) : Word16 := wordOf (s.sc.causes.toNat + 256 * mostUrgent s.sc.causes)

/-- The STATE word (R168). INIT_BUSY and CAL_BUSY are 1 in INIT and in CALIBRATE (R160, R163). -/
def State.stateWord (s : State) : Word16 :=
  wordOf (s.sc.part.code + 8 * s.sc.cause.code + 32 * s.sc.station.val + flagAt s.sc.solo 8
    + flagAt (decide (s.sc.part = .init)) 9 + flagAt (decide (s.sc.part = .calibrate)) 10
    + 2048 * s.link.state.code + flagAt s.ap.syncPresent 14)

/-- The CONTEXT word (R51). -/
def State.contextWord (s : State) : Word16 :=
  wordOf (s.cu.key.pc.val + 16 * s.cu.key.kind.code + 64 * s.cu.mode.code + 256 * s.cu.mode.stationShown
    + flagAt s.cu.changed 15)

/-- The LEADINFO word; a level from −127 down reads 127 (R28, R174). -/
def State.leadInfoWord (s : State) : Word16 :=
  wordOf (s.pt.record.confidence + 256 * min 127 (-s.pt.record.level).toNat + flagAt s.pt.record.voiced 15)

/-- A map of eight bits, one bit per station number (R126). -/
def stationMap (p : Station → Bool) : Nat :=
  (List.finRange 8).foldl (fun acc st => acc + flagAt (p st) st.val) 0

/-- The PEERS word: the presence map and the resting map (R126). -/
def State.peersWord (s : State) : Word16 :=
  wordOf (stationMap (fun st => s.peers[st].isSome)
    + 256 * stationMap (fun st => match s.peers[st] with
      | some r => r.resting
      | none => false))

/-- R146: the grain-fault indication reads 1 while the starve counter or the cut counter is above 0. -/
def Engine.grainFault (e : Engine) : Bool := 0 < e.starve || 0 < e.cut

/-- The voice status byte; the firm bit reads 0 while the voice holds no claim (R146, R174). -/
def Voice.status (vo : Voice) : Nat :=
  vo.eng.state.code
    + flagAt (match vo.plan.claim with
      | some c => c.firm
      | none => false) 3
    + flagAt vo.plan.doubled 4 + flagAt vo.eng.rangeClamp 5 + flagAt vo.eng.clip 6 + flagAt vo.eng.grainFault 7

/-- The VSTAT word of voices 2n and 2n + 1 (11.4). -/
def State.vstatWord (s : State) (n : Fin 4) : Word16 :=
  wordOf (s.voices[2 * n.val].status + 256 * s.voices[2 * n.val + 1].status)

/-- The ENABLE word (11.4). -/
def State.enableWord (s : State) : Word16 :=
  wordOf (stationMap (fun v => s.voices[v].cfg.enabled) + flagAt s.bm.mute 8 + flagAt s.sc.wakeOnVoice 9)

/-- The BUSGAIN word of a bus: the gain code with the clip counter beside it (R151). -/
def Bus.word (b : Bus) : Word16 := wordOf (b.gain + 256 * b.clipCount)

/-- The words of one owner or one indexed run of the word map (11.4). -/
inductive WordName where
  | ident
  | state
  | attn
  | attnMask
  | command
  | context
  | lead
  | leadInfo
  | peers
  | linkErr
  | qdrop
  | offset
  | gate
  | voiced
  | snap
  | settle
  | refresh
  | keycfg
  | collide
  | ruleA (i : Fin 4)
  | ruleB (i : Fin 4)
  | lane (v : VoiceIx)
  | voiceCfg (v : VoiceIx)
  | enable
  | busGain (b : BusIx)
  | voiceGain (v : VoiceIx)
  | vstat (n : Fin 4)
  | unused
  | reset
  deriving DecidableEq, Repr

/-- The place of a number in a run of eight. -/
def inRun8 (n : Nat) : Fin 8 := ⟨n % 8, Nat.mod_lt _ (by decide)⟩

/-- The place of a number in a run of four. -/
def inRun4 (n : Nat) : Fin 4 := ⟨n % 4, Nat.mod_lt _ (by decide)⟩

/-- The word at an address (11.4). -/
def wordAt (addr : BitVec 6) : WordName :=
  let a := addr.toNat
  if a = 0x00 then .ident
  else if a = 0x01 then .state
  else if a = 0x02 then .attn
  else if a = 0x03 then .attnMask
  else if a = 0x04 then .command
  else if a = 0x05 then .context
  else if a = 0x06 then .lead
  else if a = 0x07 then .leadInfo
  else if a = 0x08 then .peers
  else if a = 0x09 then .linkErr
  else if a = 0x0A then .qdrop
  else if a = 0x0B then .offset
  else if a = 0x0C then .gate
  else if a = 0x0D then .voiced
  else if a = 0x0E then .snap
  else if a = 0x0F then .settle
  else if a = 0x10 then .refresh
  else if a = 0x11 then .keycfg
  else if a = 0x12 then .collide
  else if a ≤ 0x16 then .ruleA (inRun4 (a - 0x13))
  else if a ≤ 0x1A then .ruleB (inRun4 (a - 0x17))
  else if a ≤ 0x22 then .lane (inRun8 (a - 0x1B))
  else if a ≤ 0x2A then .voiceCfg (inRun8 (a - 0x23))
  else if a = 0x2B then .enable
  else if a ≤ 0x2F then .busGain (inRun4 (a - 0x2C))
  else if a ≤ 0x37 then .voiceGain (inRun8 (a - 0x30))
  else if a ≤ 0x3B then .vstat (inRun4 (a - 0x38))
  else if a ≤ 0x3E then .unused
  else .reset

/-- The access types (Conventions). -/
inductive Access where
  | readOnly
  | setup
  | live
  | readClear
  | command
  | reset
  | unused
  deriving DecidableEq, Repr

/-- The access type of a word (11.4). -/
def WordName.access : WordName → Access
  | .ident | .state | .lead | .leadInfo | .peers | .linkErr | .qdrop | .offset | .vstat _ => .readOnly
  | .attn | .context => .readClear
  | .attnMask | .enable | .busGain _ | .voiceGain _ => .live
  | .command => .command
  | .gate | .voiced | .snap | .settle | .refresh | .keycfg | .collide | .ruleA _ | .ruleB _ | .lane _ | .voiceCfg _ => .setup
  | .unused => .unused
  | .reset => .reset

/-- The value a read of a word captures (R158, 11.4). -/
def State.wordValue (s : State) : WordName → Word16
  | .ident => Config.ident
  | .state => s.stateWord
  | .attn => s.attnWord
  | .attnMask => wordOf s.sc.mask.toNat
  | .command => 0
  | .context => s.contextWord
  | .lead => wordOf (toField s.pt.record.cents 16)
  | .leadInfo => s.leadInfoWord
  | .peers => s.peersWord
  | .linkErr => wordOf (s.link.rxCrc + 256 * s.link.echo)
  | .qdrop => wordOf (s.link.queueDrops + flagAt s.inp.calClamped 8 + flagAt s.inp.calAborted 9)
  | .offset => wordOf (toField (s.inp.offset / 16) 16)
  | .gate => wordOf (toField s.cfg.gate 16)
  | .voiced => wordOf (s.cfg.voicedThreshold + 256 * s.cfg.holdLimit)
  | .snap => wordOf s.cfg.snap
  | .settle => wordOf s.cfg.settle
  | .refresh => wordOf s.cfg.refresh
  | .keycfg => s.cfg.keycfg.word
  | .collide => wordOf (flagAt s.cfg.collideClass 0)
  | .ruleA i => s.cfg.rules[i].wordA
  | .ruleB i => s.cfg.rules[i].wordB
  | .lane v => s.voices[v].cfg.laneWord
  | .voiceCfg v => s.voices[v].cfg.cfgWord
  | .enable => s.enableWord
  | .busGain b => s.bm.buses[b].word
  | .voiceGain v => wordOf s.voices[v].cfg.gain
  | .vstat n => s.vstatWord n
  | .unused => 0
  | .reset => 0

/-- R157, R173: CSDO, none while CSEL is high: in the second half of a read the next bit of the captured word, bit 15 first, and 0 at
all other times. -/
def State.csdo (cselLow : Bool) (s : State) : Option Bool :=
  if cselLow then
    match s.sc.port with
    | some bits =>
      some (bits.headD false && decide (8 ≤ bits.length ∧ bits.length < 24) && s.sc.shiftOut.getLsbD (23 - bits.length))
    | none => some false
  else none

/-- The word a read of an address captures (R158). -/
def State.readWord (s : State) (addr : BitVec 6) : Word16 := s.wordValue (wordAt addr)

end Sys2Proof.Machine
end

