-- ==== Sys2Proof/Machine/History.lean ====
section
/-! DEFINITION. The History Memory: reading, writing and emptying the ring of 4096 samples (R14 to R16), and the canonical
form of its list. -/

namespace Sys2Proof.Machine

/-- The place of a sample number in the ring of 4096 (R14). -/
def ringPlace (n : SampleNumber) : Nat := n.toNat % 4096

/-- What the ring holds at a place; a place that is not listed reads 0. -/
def ringRead (ring : List (Nat × Sample)) (a : Nat) : Sample :=
  match ring with
  | [] => 0
  | (b, y) :: rest => if b = a then y else ringRead rest a

/-- The ring with a sample put at a place; a sample of 0 removes the entry, which keeps the form canonical. -/
def ringWrite (ring : List (Nat × Sample)) (a : Nat) (x : Sample) : List (Nat × Sample) :=
  match ring with
  | [] => if x = 0 then [] else [(a, x)]
  | (b, y) :: rest =>
    if b < a then (b, y) :: ringWrite rest a x
    else if b = a then (if x = 0 then rest else (a, x) :: rest)
    else if x = 0 then (b, y) :: rest
    else (a, x) :: (b, y) :: rest

/-- The canonical form of the ring's list: places strictly rising and below 4096, and no sample 0. -/
abbrev ringWf (ring : List (Nat × Sample)) : Prop :=
  ring.Pairwise (fun c d => c.1 < d.1) ∧ ∀ c ∈ ring, c.1 < 4096 ∧ c.2 ≠ 0

/-- The History Memory is well formed: its ring is canonical and its fill count is at most 4096 (R14). -/
abbrev HistoryMemory.wf (h : HistoryMemory) : Prop := ringWf h.ring ∧ h.fill ≤ 4096

/-- A sample number is retained while W − 4095 ≤ s ≤ W, compared by difference (R14). -/
def HistoryMemory.retained (h : HistoryMemory) (s : SampleNumber) : Bool :=
  0 ≤ distance s h.newest && distance s h.newest ≤ 4095

/-- A sample number is held while it is retained and W − (fill count − 1) ≤ s (R14). -/
def HistoryMemory.held (h : HistoryMemory) (s : SampleNumber) : Bool :=
  h.retained s && distance s h.newest < h.fill

/-- R15: a held sample number reads its conditioned sample and any other reads 0. -/
def HistoryMemory.read (h : HistoryMemory) (s : SampleNumber) : Sample :=
  if h.held s then ringRead h.ring (ringPlace s) else 0

/-- R14: a conditioned sample is written at its sample number, which becomes W, and the fill count grows up to 4096. -/
def HistoryMemory.write (h : HistoryMemory) (s : SampleNumber) (x : Sample) : HistoryMemory where
  ring := ringWrite h.ring (ringPlace s) x
  newest := s
  fill := min 4096 (h.fill + 1)

/-- R16: emptying at a sync return; W keeps its value. -/
def HistoryMemory.empty (h : HistoryMemory) : HistoryMemory := { h with ring := [], fill := 0 }

/-- The newest `n` samples as signed values, newest first: x[W], x[W − 1], … -/
def HistoryMemory.newestSamples (h : HistoryMemory) (n : Nat) : List Int :=
  (List.range n).map fun j => (h.read (h.newest - BitVec.ofNat 32 j)).toInt

end Sys2Proof.Machine
end

