-- ==== Sys2Proof/Machine/Ops.lean ====
section
/-! DEFINITION. The shared operations: raising a cause, offering to the transmit queue, giving up a claim, changing the
context, and the refusal of a write or command. -/

namespace Sys2Proof.Machine

/-- A command's effect, which a held reset keeps from happening: while a power-on or pin reset is held the part takes
nothing (R157, R167). -/
def whenReleased (f : State → State) (s : State) : Host.Outcome State Fault Refusal :=
  .next (if s.sc.resetHeld then s else f s)

/-! ## Voices in State -/

/-- Voice v put back into the voice table. -/
def State.setVoice (s : State) (v : VoiceIx) (vo : Voice) : State := { s with voices := s.voices.set v vo }

/-- Every voice changed by its index. -/
def State.mapVoices (s : State) (f : VoiceIx → Voice → Voice) : State :=
  { s with voices := Vector.ofFn fun v => f v s.voices[v] }

/-! ## Attention -/

/-- A capture in progress no longer clears a cause that is raised again (R158, R170). -/
def Capture.keepRaised (c : Cause) : Capture → Capture
  | .attn clears => .attn (clears &&& ~~~c.bit)
  | .context clears => .context clears

/-- R169: a raised cause becomes pending; one that is pending stays so. -/
def State.raise (c : Cause) (s : State) : State :=
  { s with sc := { s.sc with causes := s.sc.causes ||| c.bit, capture := s.sc.capture.map (Capture.keepRaised c) } }

/-- R166: a refused write or command does nothing but raise REFUSED. -/
def State.refuse (s : State) : State := s.raise .refused

/-! ## The transmit queue -/

/-- The voice of a CLAIM or DROP entry. -/
def Entry.voice? : Entry → Option VoiceIx
  | .drop v => some v
  | .claim v _ _ _ => some v
  | _ => none

/-- R104: two entries are of the same class. -/
def Entry.sameClass (a b : Entry) : Bool :=
  match a, b with
  | .lead, .lead => true
  | .key, .key => true
  | .hello _, .hello _ => true
  | _, _ => a.voice?.isSome && a.voice? == b.voice?

/-- R105: what a queued entry becomes when an offer of its class coalesces with it. -/
def Entry.coalesce (old offer : Entry) : Entry :=
  match old, offer with
  | .hello f, .hello g => .hello (f || g)
  | _, _ => offer

/-- The rank of the lowest-ranked kind present; the greater the number, the lower the rank (R106). -/
def lowestRank (queue : List Entry) : Nat := queue.foldl (fun r e => max r e.rank) 0

/-- The place of the newest entry of a rank in the queue (R107). -/
def newestOfRank (queue : List Entry) (r : Nat) : Nat :=
  queue.length - 1 - queue.reverse.findIdx fun e => e.rank == r

/-- The number of queued entries older than the slot's entry once the entry at place i has gone. -/
def TxSlot.afterDiscard (t : TxSlot) (i : Nat) : TxSlot := if i < t.place then { t with place := t.place - 1 } else t

/-- R107: an entry that neither coalesces nor finds room, at its place in the age order: it pushes out the newest entry of
the lowest-ranked kind if it outranks it and is discarded otherwise, and QUEUE counts one. -/
def LinkController.overflow (l : LinkController) (e : Entry) (place : Nat) : LinkController :=
  let r := lowestRank l.queue
  if e.rank < r then
    let i := newestOfRank l.queue r
    { l with
      queue := (l.queue.eraseIdx i).insertIdx (if i < place then place - 1 else place) e
      slot := l.slot.map (·.afterDiscard i)
      queueDrops := bump l.queueDrops }
  else { l with queueDrops := bump l.queueDrops }

/-- R104: the queue takes offers in ACTIVE and STUCK. -/
def LinkState.takesOffers : LinkState → Bool
  | .active => true
  | .stuck => true
  | _ => false

/-- R104: an offer that the overflow rule adds is accepted too. -/
def LinkController.overflowAccepts (l : LinkController) (e : Entry) : Bool := e.rank < lowestRank l.queue

/-- R104, R105, R107, R111: an offer to the queue; an accepted one sets the quiet count to 0. -/
def LinkController.offer (l : LinkController) (e : Entry) : LinkController :=
  if l.state.takesOffers then
    match l.queue.findIdx? (·.sameClass e) with
    | some i => { l with queue := l.queue.modify i (·.coalesce e), quietCount := 0 }
    | none =>
      if l.queue.length < 8 then { l with queue := l.queue ++ [e], quietCount := 0 }
      else if l.overflowAccepts e then { l.overflow e 8 with quietCount := 0 }
      else l.overflow e 8
  else l

/-- An offer made by any block of the part. -/
def State.offer (e : Entry) (s : State) : State := { s with link := s.link.offer e }

/-- An offer, when there is one. -/
def State.offerSome (e : Option Entry) (s : State) : State :=
  match e with
  | some e => s.offer e
  | none => s

/-- R109: a LEAD is offered, which sets the LEAD count to 0 whatever the queue does with it. -/
def State.offerLead (s : State) : State := { s with link := { s.link.offer .lead with leadCount := 0 } }

/-- R110: a KEY is offered, which sets the KEY count to 0 whatever the queue does with it. -/
def State.offerKey (s : State) : State := { s with link := { s.link.offer .key with keyCount := 0 } }

/-- R112: a HELLO is offered. -/
def State.offerHello (fresh : Bool) (s : State) : State := s.offer (.hello fresh)

/-! ## Claims -/

/-- The renderer states in which a voice holds a claim (R72). -/
def VoiceState.sounding : VoiceState → Bool
  | .onset => true
  | .sound => true
  | .hold => true
  | _ => false

/-- R76: a voice without its claim: no decided note, and on-alternate flag, free count and doubled mark 0. -/
def Voice.withoutClaim (vo : Voice) : Voice :=
  { vo with
    plan := { vo.plan with claim := none, decided := none, onAlternate := false, freeCount := 0, doubled := false } }

/-- R134: a voice entering FADE loses its claim, and its envelope turns to fall from where it stands. -/
def Voice.toFade (vo : Voice) : Voice :=
  { vo.withoutClaim with eng := { vo.eng with state := .fade } }

/-- R76, R134: entry to FADE outside a hand-over, at once, with the voice's DROP offered. -/
def State.fadeEntry (v : VoiceIx) (s : State) : State :=
  (s.setVoice v s.voices[v].toFade).offer (.drop v)

/-- R78: the CLAIM entry of a voice, its fields as they stand when it is queued. -/
def Voice.claimEntry (v : VoiceIx) (vo : Voice) (c : LocalClaim) : Entry := .claim v c.firm vo.cfg.rule c.note

/-! ## Context changes -/

/-- R89: every voice's free count becomes 0. -/
def State.clearFreeCounts (s : State) : State :=
  s.mapVoices fun _ vo => { vo with plan := { vo.plan with freeCount := 0 } }

/-- A context change made since the capture is not cleared by the read (R51, R158). -/
def Capture.keepChanged : Capture → Capture
  | .attn clears => .attn clears
  | .context _ => .context false

/-- R51, R89: what a context change does at once, but for the KEY offer: the flag, the cause and the free counts. -/
def State.noteContextChange (s : State) : State :=
  let s1 := { s with
    cu := { s.cu with changed := true }
    sc := { s.sc with capture := s.sc.capture.map Capture.keepChanged } }
  (s1.raise .context).clearFreeCounts

/-- R51, R110: a context change between hops, with its KEY offer. -/
def State.contextChange (s : State) : State := s.noteContextChange.offerKey

/-- The current key, the mode and the open-decision flag set together (R45 to R50); a context change is reported when the
key, the mode or the pinning station is another than before (R51). -/
def State.setContext (key : Key) (mode : KeyMode) (openDecision : Bool) (s : State) : State :=
  let s1 := { s with cu := { s.cu with key := key, mode := mode, openDecision := openDecision } }
  if key = s.cu.key ∧ mode = s.cu.mode then s1 else s1.contextChange

/-! ## The part state -/

/-- R102, R110, R112: the link leaves LISTEN at the first entry to LIVE, and offers a fresh HELLO and a KEY; a SOLO or
MUTED link stays as it is. -/
def State.linkFirstLive (s : State) : State :=
  match s.link.state with
  | .listen =>
    ({ s with link := { s.link with state := .active, stuckMonitor := .dominant } }.offerHello true).offerKey
  | _ => s

/-- R162: an entry to LIVE; the first since the reset signals the link controller. -/
def State.enterLive (s : State) : State :=
  let s1 := { s with sc := { s.sc with part := .live, liveEntry := true } }
  if s.sc.liveEntry then s1 else s1.linkFirstLive

/-- R165: a return from STANDBY to LIVE, by WAKE or by a voiced onset, with its HELLO. -/
def State.returnToLive (s : State) : State := s.enterLive.offerHello false

/-- R11, R12: a measurement ends, completed or abandoned: the part returns to SETUP and DONE is raised. -/
def State.endCalibration (s : State) : State :=
  { s with inp := { s.inp with measurement := none }, sc := { s.sc with part := .setup } }.raise .done

/-- R12: a measurement is abandoned. -/
def State.abandonCalibration (s : State) : State :=
  { s with inp := { s.inp with calAborted := true } }.endCalibration

/-- R157: a transaction that begins ends the read whose CSEL had not risen in time. -/
def State.endTransaction (s : State) : State := { s with sc := { s.sc with capture := none } }

end Sys2Proof.Machine
end

