-- ==== Sys2Proof/Machine/Context.lean ====
section
/-! DEFINITION. The Context Unit: held note, key tally, key decision and the key mode (R35 to R51). -/

namespace Sys2Proof.Machine

/-- The pitch class of a note (Conventions). -/
def pitchClass (note : Nat) : Fin 12 := ⟨note % 12, Nat.mod_lt _ (by decide)⟩

/-- R36: the nearest semitone of a lead, halves up. -/
def nearestSemitone (cents : Int) : Nat := (roundHalfUp cents 100).toNat

/-- R36: the held note at a voiced hop. -/
def heldAfterVoiced (snap : Nat) (held : Option Nat) (cents : Int) : Nat :=
  match held with
  | none => nearestSemitone cents
  | some n => if (snap : Int) < |cents - 100 * n| then nearestSemitone cents else n

/-- A held-note change sets every free count to 0 (R38, R89). -/
def State.setHeld (held : Option Nat) (count : Nat) (s : State) : State :=
  let s1 := { s with cu := { s.cu with held := held, holdCount := count } }
  if held = s.cu.held then s1 else s1.clearFreeCounts

/-- R37: the end of the hold, when the hold count has passed the hold length of 8. -/
def State.holdLengthEnd (s : State) : State :=
  if s.cu.held.isSome ∧ 8 < s.cu.holdCount then s.setHeld none 0 else s

/-- R36, R37: step 1 of the hop work. -/
def State.heldNoteWork (s : State) : State :=
  if s.pt.record.voiced then s.setHeld (some (heldAfterVoiced s.cfg.snap s.cu.held s.pt.record.cents)) 0
  else if s.cu.held.isSome then
    State.holdLengthEnd { s with cu := { s.cu with holdCount := s.cu.holdCount + 1 } }
  else s

/-- R38: the deviation of the last voiced pair from the held note. -/
def State.deviation (s : State) (held : Nat) : Int := s.pt.lastVoiced.cents - 100 * held

/-- R125: the held note and confidence of a peer whose lead is a sounding lead. -/
def PeerRecord.soundingLead (r : PeerRecord) : Option (Nat × Nat) :=
  match r.lead with
  | some l =>
    match l.held with
    | some n => if l.voiced ∧ l.age ≤ 12 then some (n, l.confidence) else none
    | none => none
  | none => none

/-- The sounding lead of a station's record, if it has one (R125). -/
def State.soundingLead (s : State) (p : Station) : Option (Nat × Nat) :=
  match s.peers[p] with
  | some r => r.soundingLead
  | none => none

/-- R39: one weight after a hop's decay. -/
def decayed (w : Nat) : Nat := w - w / 512

/-- R40: a lead's confidence is added to the weight of its note's pitch class, up to 65535. -/
def feed (tally : Vector Nat 12) (note confidence : Nat) : Vector Nat 12 :=
  tally.set (pitchClass note) (min 65535 (tally[pitchClass note] + confidence))

/-- R40: the own lead's part in the tally. -/
def State.feedOwn (s : State) (tally : Vector Nat 12) : Vector Nat 12 :=
  match s.cu.held with
  | some n => if s.pt.record.voiced then feed tally n s.pt.record.confidence else tally
  | none => tally

/-- R40: the peers' part in the tally. -/
def State.feedPeers (s : State) (tally : Vector Nat 12) : Vector Nat 12 :=
  (List.finRange 8).foldl
    (fun t p =>
      match s.soundingLead p with
      | some (n, c) => feed t n c
      | none => t) tally

/-- R39, R40: step 2 of the hop work. -/
def State.tallyWork (s : State) : State :=
  { s with
    cu := { s.cu with
      tally := s.feedPeers (s.feedOwn (Vector.ofFn fun k => decayed s.cu.tally[k])) } }

/-- R44: the tone table of a scale kind. -/
def ScaleKind.tones : ScaleKind → Vector Nat 7
  | .major => #v[0, 2, 4, 5, 7, 9, 11]
  | .minor => #v[0, 2, 3, 5, 7, 8, 10]
  | .harmonic => #v[0, 2, 3, 5, 7, 8, 11]
  | .mixolydian => #v[0, 2, 4, 5, 7, 9, 10]

/-- R42: score(k), the weight of the seven pitch classes of k MAJOR. -/
def score (tally : Vector Nat 12) (k : Fin 12) : Nat :=
  (List.finRange 7).foldl (fun acc i => acc + tally[pitchClass (k.val + ScaleKind.major.tones[i])]) 0

/-- The lowest k with the highest score (R42). -/
def bestLowest (tally : Vector Nat 12) : Fin 12 :=
  (List.finRange 12).foldl (fun b k => if score tally b < score tally k then k else b) 0

/-- R42, R43: the best key; a key `c` that is favoured wins a tie. -/
def bestKey (tally : Vector Nat 12) (favoured : Option (Fin 12)) : Fin 12 :=
  match favoured with
  | some c => if score tally c = score tally (bestLowest tally) then c else bestLowest tally
  | none => bestLowest tally

/-- R42: the key a decision leaves when the open-decision flag is 0. -/
def marginDecision (tally : Vector Nat 12) (key : Key) : Key :=
  let b := bestKey tally (some key.pc)
  if b ≠ key.pc ∧ score tally key.pc + score tally key.pc / 8 < score tally b then { pc := b, kind := .major } else key

/-- R43: the key a decision leaves when the open-decision flag is 1. -/
def openDecisionKey (tally : Vector Nat 12) (key : Key) : Key :=
  { pc := bestKey tally (if key.kind = .major then some key.pc else none), kind := .major }

/-- R42, R43: the key a decision in AUTO leaves. -/
def ContextUnit.decide (c : ContextUnit) : Key :=
  if c.openDecision then openDecisionKey c.tally c.key else marginDecision c.tally c.key

/-- R41: the Context Unit with its decision count back at 0 and, in AUTO, its key decided. -/
def ContextUnit.atDecision (c : ContextUnit) : ContextUnit :=
  match c.mode with
  | .auto => { c with decisionCount := 0, key := c.decide, openDecision := false }
  | _ => { c with decisionCount := 0 }

/-- What the Context Unit signals at a hop to the planner and the link controller (R35). -/
structure HopSignals where
  heldChanged : Bool
  keyChanged : Bool
  deriving DecidableEq, Repr

/-- R41 to R43: a hop whose decision count has reached 16 is a decision hop; a key change is noted, and its KEY offer is
left to the link controller (R108). -/
def State.decisionDue (s : State) : State :=
  if 16 ≤ s.cu.decisionCount then
    let s1 := { s with cu := s.cu.atDecision }
    if s1.cu.key = s.cu.key then s1 else s1.noteContextChange
  else s

/-- R41: step 3 of the hop work. -/
def State.decisionWork (s : State) : State :=
  State.decisionDue { s with cu := { s.cu with decisionCount := s.cu.decisionCount + 1 } }

/-- R35: the Context Unit's work at a hop, with what it signals. -/
def State.contextWork (s : State) : State × HopSignals :=
  let s3 := s.heldNoteWork.tallyWork.decisionWork
  (s3, { heldChanged := decide (s3.cu.held ≠ s.cu.held), keyChanged := decide (s3.cu.key ≠ s.cu.key) })

/-- R43, R47, R49, R50: a pin is given up: AUTO, the key kept, the open-decision flag set. -/
def State.releasePin (s : State) : State := s.setContext s.cu.key .auto true

/-- R48, R49: the Context Unit's part in a received KEY frame. -/
def State.keyReceived (p : Station) (k : KeyReport) (s : State) : State :=
  if h : k.pc ≤ 11 ∧ k.kind ≤ 3 then
    if k.pinned then
      match s.cu.mode with
      | .pinnedLocal => s
      | _ => s.setContext { pc := ⟨k.pc, by omega⟩, kind := ScaleKind.ofCode k.kind } (.pinnedPeer p) false
    else if s.cu.mode = .pinnedPeer p then s.releasePin
    else s
  else s

end Sys2Proof.Machine
end

