-- ==== Sys2Proof/Machine/PeerTable.lean ====
section
/-! DEFINITION. The Peer Table: good frames, ageing and removal (R114 to R128). -/

namespace Sys2Proof.Machine

/-- R115: a record at its creation. -/
def PeerRecord.empty : PeerRecord where
  silence := 0
  lead := none
  keyReport := none
  claims := Vector.replicate 8 none
  resting := false

/-- R118: a claim inserted at a voice index; an index outside 0..7 is not applied. -/
def PeerRecord.insertClaim (r : PeerRecord) (voice : Nat) (c : PeerClaim) : PeerRecord :=
  if h : voice < 8 then { r with claims := r.claims.set voice (some c) } else r

/-- R119, R122: the claim at a voice index removed, if one is held there. -/
def PeerRecord.removeClaim (r : PeerRecord) (voice : Nat) : PeerRecord :=
  if h : voice < 8 then { r with claims := r.claims.set voice none } else r

/-- R121: a HELLO applied to a record. -/
def PeerRecord.applyHello (r : PeerRecord) (fresh resting : Bool) : PeerRecord :=
  if fresh then { r with resting := resting, lead := none, claims := Vector.replicate 8 none }
  else { r with resting := resting }

/-- R116 to R121: a good frame applied to the sender's record, by its kind. A kind above 7 has no rule and changes nothing
(log 11). -/
def PeerRecord.apply (r : PeerRecord) (f : LinkFrame) : PeerRecord :=
  match f.kind with
  | 0 => r.removeClaim f.voice
  | 1 => r.insertClaim f.voice { note := f.note, firm := f.firm, age := 0 }
  | 2 => { r with lead := some f.leadPart }
  | 3 => { r with keyReport := some f.keyPart }
  | 4 => r.applyHello f.fresh f.restingBit
  | _ => r

/-- The table with a station's record set. -/
def State.setPeer (p : Station) (r : Option PeerRecord) (s : State) : State := { s with peers := s.peers.set p r }

/-- R115: the record of a station is created when there is none, which raises PEER. -/
def State.findOrCreate (p : Station) (s : State) : State :=
  match s.peers[p] with
  | some _ => s
  | none => (s.setPeer p (some PeerRecord.empty)).raise .peer

/-- R116: the station's record takes the frame, its silence 0. -/
def State.applyFrame (p : Station) (f : LinkFrame) (s : State) : State :=
  match s.peers[p] with
  | some r => s.setPeer p (some { (r.apply f) with silence := 0 })
  | none => s

/-- R100, R116, R120: a good frame is handed to the Peer Table, and a KEY on to the Context Unit. -/
def State.goodFrame (f : LinkFrame) (s : State) : State :=
  let s1 := (s.findOrCreate f.station).applyFrame f.station f
  if f.kind = 3 then s1.keyReceived f.station f.keyPart else s1

/-- R122: ages and silences count up to 255 (Conventions). -/
def ageUp (n : Nat) : Nat := min 255 (n + 1)

/-- R122 step 1: a claim record one hop older. -/
def PeerClaim.older (c : PeerClaim) : PeerClaim := { c with age := ageUp c.age }

/-- R122 step 2: a lead part one hop older. -/
def PeerLead.older (l : PeerLead) : PeerLead := { l with age := ageUp l.age }

/-- R122: a claim whose age exceeds 3 × REFRESH is removed. -/
def keepClaim (refresh : Nat) (c : Option PeerClaim) : Option PeerClaim :=
  match c with
  | some k => if 3 * refresh < k.age then none else some k
  | none => none

/-- R122, R123: a record one hop older: claims aged and removed past their limit, the lead aged, and the silence counted
without saturation. -/
def PeerRecord.older (refresh : Nat) (r : PeerRecord) : PeerRecord :=
  { r with
    claims := Vector.ofFn fun v => keepClaim refresh (r.claims[v].map PeerClaim.older)
    lead := r.lead.map PeerLead.older
    silence := r.silence + 1 }

/-- R123: the record limit, 4 × REFRESH or 255, whichever is smaller. -/
def recordLimit (refresh : Nat) : Nat := min (4 * refresh) 255

/-- R50, R123: a record removed by silence: PEER is raised, and a pin of that station is released. -/
def State.removePeer (p : Station) (s : State) : State :=
  let s1 := (s.setPeer p none).raise .peer
  if s1.cu.mode = .pinnedPeer p then s1.releasePin else s1

/-- R123: the record of a station is removed when its silence exceeds the record limit. -/
def State.recordLimitDue (p : Station) (s : State) : State :=
  match s.peers[p] with
  | some r => if recordLimit s.cfg.refresh < r.silence then s.removePeer p else s
  | none => s

/-- R122, R123: the ageing of one station's record at a hop. -/
def State.agePeer (p : Station) (s : State) : State :=
  State.recordLimitDue p (s.setPeer p (s.peers[p].map (·.older s.cfg.refresh)))

/-- R122: the table's ageing at a hop, every record. -/
def State.ageing (s : State) : State := (List.finRange 8).foldl (fun t p => t.agePeer p) s

/-- R122: the claim of a station at a voice index is removed when its age exceeds 3 × REFRESH. -/
def State.claimAgeLimitDue (p : Station) (v : VoiceIx) (s : State) : State :=
  match s.peers[p] with
  | some r =>
    match r.claims[v] with
    | some c => if 3 * s.cfg.refresh < c.age then s.setPeer p (some (r.removeClaim v.val)) else s
    | none => s
  | none => s

end Sys2Proof.Machine
end

