-- ==== Sys2Proof/Machine/Link.lean ====
section
/-! DEFINITION. The Ensemble Link Controller: starting, losing, abandoning and sending a frame, receiving, the stuck monitor
and the send triggers (R91 to R113). -/

namespace Sys2Proof.Machine

/-! ## Sending -/

/-- The rank of the highest-ranked kind present in a queue; the smaller the number, the higher the rank (R106). -/
def highestRank (queue : List Entry) : Nat := queue.foldl (fun r e => min r e.rank) 4

/-- R106: the place of the entry a start takes: the oldest of the highest-ranked kind present. -/
def nextPlace (queue : List Entry) : Nat := queue.findIdx fun e => e.rank == highestRank queue

/-- The receiver is taking a frame (R92). -/
def Receiver.isTaking : Receiver → Bool
  | .taking _ => true
  | _ => false

/-- R96: the station may start a frame; that the pair is idle is what START_FRAME says. -/
def LinkController.mayStart (l : LinkController) : Bool :=
  decide (l.state = .active) && !l.queue.isEmpty && l.slot.isNone && !l.receiver.isTaking

/-- R94, R96: a start: the entry goes from the queue into the slot and its frame is built. -/
def State.startFrame (s : State) : State :=
  if s.link.mayStart then
    let i := nextPlace s.link.queue
    match s.link.queue[i]? with
    | some e =>
      { s with
        link := { s.link with
          queue := s.link.queue.eraseIdx i
          slot := some { entry := e, place := i, frame := buildFrame s e }
          receiver := .ready } }
    | none => s
  else s

/-- R97: over the bits given, most significant first, a station that drives `own` loses to `winner` when it drives
recessive and reads dominant before it has itself driven dominant over a recessive bit. -/
def losesBits (own winner : Byte) : List Nat → Bool
  | [] => false
  | i :: rest =>
    if own.getLsbD i = winner.getLsbD i then losesBits own winner rest
    else own.getLsbD i && !pairLevel [own.getLsbD i, winner.getLsbD i]

/-- R97: the arbitration over the eight bits of byte 0. -/
def losesArbitration (own winner : Byte) : Bool := losesBits own winner [7, 6, 5, 4, 3, 2, 1, 0]

/-- R97: a returning HELLO leaves its fresh flag with the entry that stands; any other returning entry is discarded. -/
def Entry.keepStanding (standing returning : Entry) : Entry :=
  match standing, returning with
  | .hello f, .hello g => .hello (f || g)
  | _, _ => standing

/-- R97: the entry of a lost arbitration goes back to the queue. -/
def LinkController.giveBack (l : LinkController) (e : Entry) (place : Nat) : LinkController :=
  match l.queue.findIdx? (·.sameClass e) with
  | some i => { l with queue := l.queue.modify i (·.keepStanding e) }
  | none => if l.queue.length < 8 then { l with queue := l.queue.insertIdx place e } else l.overflow e place

/-- R97: the arbitration is lost to a frame whose byte 0 is `winner`; the receiver goes on with that frame. -/
def LinkController.loseArbitration (l : LinkController) (winner : Byte) : LinkController :=
  match l.slot with
  | some t =>
    if losesArbitration t.frame.b0 winner then
      LinkController.giveBack { l with slot := none, receiver := .taking, rxBytes := [winner] } t.entry t.place
    else l
  | none => l

/-- R91, R92: the recessive bits in a row that a receiver knows of: those that make the pair idle when it is ready, and those it
has counted when it waits. -/
def Receiver.run : Receiver → Nat
  | .ready => idleRun
  | .waitIdle n => n
  | .taking _ => 0

/-- R91, R92: a receiver that takes no frame, in INIT or while the station sends, follows the pair: it keeps the run of recessive
bits alone. -/
def Receiver.follow (r : Receiver) (level : Bool) : Receiver := .waitIdle (if level then r.run + 1 else 0)

/-- R91, R92: the receiver follows the pair over the given levels. -/
def LinkController.follow (bits : List Bool) (l : LinkController) : LinkController :=
  { l with receiver := bits.foldl Receiver.follow l.receiver }

/-- R91, R92: the receiver waits for the pair to be idle, from the run it has followed; with that run long enough the pair is idle. A
receiver that was given no level knows of no run. -/
def Receiver.await : Receiver → Receiver
  | .waitIdle n => if idleRun ≤ n then .ready else .waitIdle n
  | .ready => .waitIdle
  | .taking _ => .waitIdle

/-- R98, R92: an echo mismatch: the frame is abandoned, its entry discarded, ECHO counts one, and the wait for idle goes on from
the bits followed. -/
def LinkController.echoMismatch (l : LinkController) : LinkController :=
  match l.slot with
  | some _ => { l with slot := none, receiver := l.receiver.await, echo := bump l.echo }
  | none => l

/-- R98, R92: the sixth stop bit has been read back recessive: the frame is sent, its entry discarded, and the recessive bits
that end it count for the wait for idle. -/
def LinkController.frameSent (l : LinkController) : LinkController :=
  match l.slot with
  | some t => { l with slot := none, receiver := .waitIdle (recessiveRun t.frame.levels) }
  | none => l

/-- R91, R94: the level the station drives at bit `n` of its frame, recessive when it sends none or the frame is over. -/
def LinkController.drives (l : LinkController) (n : Nat) : Bool :=
  match l.slot with
  | some t => t.frame.levels.getD n true
  | none => true

/-! ## Receiving -/

/-- R99, R160, R92: the receiver takes frames outside SOLO, outside INIT, and while the station is not transmitting. -/
def State.takesFrames (s : State) : Bool :=
  decide (s.link.state ≠ .solo) && decide (s.sc.part ≠ .init) && s.link.slot.isNone

/-- R101: a frame with the own station number. -/
def State.duplicate (s : State) : State :=
  match s.link.state with
  | .muted => s
  | .solo => s
  | _ => State.raise .link { s with link := { s.link with state := .muted, queue := [], stuckMonitor := .off } }

/-- R100 checks 1 and 2: a discarded frame that RX_CRC counts. -/
def State.countRxCrc (s : State) : State := { s with link := { s.link with rxCrc := bump s.link.rxCrc } }

/-- R100: the checks on a complete frame, in turn. -/
def State.checkFrame (f : LinkFrame) (s : State) : State :=
  if !f.crcPasses then s.countRxCrc
  else if 5 ≤ f.kind ∧ f.kind ≤ 7 then s
  else if f.station = s.sc.station then (if f.kind ≤ 4 then s.duplicate else s)
  else s.goodFrame f

/-- R92: the receiver after the end of a taking: a short frame ends with the pair idle, and after any other end the receiver waits
for idle, the recessive bits that end a complete frame counted. -/
def Receiver.after : Reception → Receiver
  | .short => .ready
  | .framingError => .waitIdle
  | .complete f => .waitIdle (recessiveRun f.levels)
  | .levels _ => .waitIdle

/-- R92: the end of a taking: its bytes are handed on or dropped, and the receiver goes on as that end has it. -/
def LinkController.endTaking (l : LinkController) (rx : Reception) : LinkController :=
  { l with receiver := Receiver.after rx, rxBytes := [] }

/-- R92: the stop bit of the last byte read: dominant, it is a framing error; recessive, it completes the sixth byte or leaves
the receiver to the gap before the next byte. -/
def LinkController.readStop (l : LinkController) (level : Bool) : LinkController × Option Reception :=
  if level then
    match LinkFrame.ofBytes l.rxBytes with
    | some f => (l.endTaking (.complete f), some (.complete f))
    | none => ({ l with receiver := .taking [true] }, none)
  else (l.endTaking .framingError, some .framingError)

/-- R92: a level in the gap after a stop bit, `since` recessive bits long, that stop bit the first of them: dominant, it is the start bit of
the next byte; recessive, it makes the frame short when the pair, whose run began in the byte before, is idle with it. -/
def LinkController.readGap (l : LinkController) (since : List Bool) (level : Bool) : LinkController × Option Reception :=
  if level ∧ idleRun ≤ recessiveRun (l.rxBytes.flatMap byteLevels ++ since.tail) + 1 then
    (l.endTaking .short, some .short)
  else ({ l with receiver := .taking (since ++ [level]) }, none)

/-- R91, R92: a level of a byte that has begun, `bits` read of it: the eighth makes it a byte of the frame. -/
def LinkController.readBit (l : LinkController) (since bits : List Bool) (level : Bool) : LinkController :=
  if bits.length < 7 then { l with receiver := .taking (since ++ [level]) }
  else { l with receiver := .taking, rxBytes := l.rxBytes ++ [byteOfLevels (bits ++ [level])] }

/-- R92: the level of the pair at one bit time, and the end of a taking that it brings, if any. -/
def LinkController.readLevel (l : LinkController) (level : Bool) : LinkController × Option Reception :=
  match l.receiver with
  | .ready => (if level then l else { l with receiver := .taking [false], rxBytes := [] }, none)
  | .waitIdle run =>
    ({ l with receiver := if level then (if idleRun ≤ run + 1 then .ready else .waitIdle (run + 1)) else .waitIdle }, none)
  | .taking since =>
    match since, since.dropWhile id with
    | [], _ => l.readStop level
    | _, [] => l.readGap since level
    | _, _ :: bits => (l.readBit since bits level, none)

/-- R92, R100: what the end of a taking brings: a complete frame is checked, any other is discarded and counted. -/
def State.takingEnds (rx : Reception) (s : State) : State :=
  match rx with
  | .short => s.countRxCrc
  | .framingError => s.countRxCrc
  | .complete f => s.checkFrame f
  | .levels _ => s

/-- R92: the receiver reads the pair at one bit time. -/
def State.readLevel (level : Bool) (s : State) : State :=
  let r := s.link.readLevel level
  let s1 := { s with link := r.1 }
  match r.2 with
  | some rx => s1.takingEnds rx
  | none => s1

/-- R92, R100: a frame the receiver has taken, complete or not; or the levels of the pair, read one after another, which a
receiver in INIT or of a transmitting station only follows. In SOLO activity on the pair is ignored (R99). -/
def State.receiveFrame (rx : Reception) (s : State) : State :=
  if s.takesFrames then
    match rx with
    | .levels bits => bits.foldl (fun t level => t.readLevel level) s
    | _ => { s with link := s.link.endTaking rx }.takingEnds rx
  else
    match rx with
    | .levels bits => if s.link.state = .solo then s else { s with link := s.link.follow bits }
    | _ => s

/-! ## The stuck monitor -/

/-- R103: a dominant run longer than 1 ms in ACTIVE; the slot is empty by then. -/
def State.stuckEntry (s : State) : State :=
  if s.link.state = .active ∧ s.link.slot = none then
    State.raise .link { s with link := { s.link with state := .stuck, stuckMonitor := .recessive } }
  else s

/-- R103: a recessive level of 1 ms in STUCK. -/
def State.stuckReturn (s : State) : State :=
  if s.link.state = .stuck then { s with link := { s.link with state := .active, stuckMonitor := .dominant } } else s

/-! ## Send triggers -/

/-- R109: the periodic LEAD, when the LEAD count has reached 4 with the record voiced. -/
def State.periodicLeadDue (s : State) : State :=
  if 4 ≤ s.link.leadCount ∧ s.pt.record.voiced then s.offerLead else s

/-- R110: the periodic KEY, when the KEY count has reached 128. -/
def State.periodicKeyDue (s : State) : State := if 128 ≤ s.link.keyCount then s.offerKey else s

/-- R111: the quiet HELLO, when the quiet count has reached REFRESH; the count is then 0 whether or not the offer is
accepted. -/
def State.quietHelloDue (s : State) : State :=
  if s.cfg.refresh ≤ s.link.quietCount then
    let s1 := s.offerHello false
    { s1 with link := { s1.link with quietCount := 0 } }
  else s

/-- R109 at a synced hop: the offer or the count, then the last voiced flag and the count at an unvoiced record. -/
def State.leadTriggerSynced (heldChanged : Bool) (s : State) : State :=
  let voiced := s.pt.record.voiced
  let s1 :=
    if heldChanged || voiced != s.link.lastVoiced then s.offerLead
    else if voiced then State.periodicLeadDue { s with link := { s.link with leadCount := s.link.leadCount + 1 } }
    else s
  { s1 with link := { s1.link with lastVoiced := voiced, leadCount := if voiced then s1.link.leadCount else 0 } }

/-- R109 at a free hop: only a held-note change offers a LEAD. -/
def State.leadTriggerFree (heldChanged : Bool) (s : State) : State := if heldChanged then s.offerLead else s

/-- R110 at a hop: the KEY count counts the hop, and a context change of the hop or the count's limit offers a KEY. -/
def State.keyTrigger (keyChanged : Bool) (s : State) : State :=
  let s1 := { s with link := { s.link with keyCount := s.link.keyCount + 1 } }
  if keyChanged then s1.offerKey else s1.periodicKeyDue

/-- R111 at a hop. -/
def State.quietTrigger (s : State) : State :=
  State.quietHelloDue { s with link := { s.link with quietCount := s.link.quietCount + 1 } }

/-- R108: the link controller's work at a hop, after the Context Unit's. -/
def State.linkHopWork (synced : Bool) (sig : HopSignals) (s : State) : State :=
  let s1 := if synced then s.leadTriggerSynced sig.heldChanged else s.leadTriggerFree sig.heldChanged
  (s1.keyTrigger sig.keyChanged).quietTrigger

end Sys2Proof.Machine
end

