-- ==== Sys2Proof/Machine/Planner.lean ====
section
/-! DEFINITION. The Harmony Planner's arithmetic: scale degree, stepping, folding, the note contest, target, glide, shift and
synthesis period (R52 to R68, R80 to R90). -/

namespace Sys2Proof.Machine

/-! ## Candidates -/

/-- Whether an offset above the key is a tone of the scale kind (R57). -/
def ScaleKind.isTone (k : ScaleKind) (o : Nat) : Bool := (List.finRange 7).any fun i => k.tones[i] == o

/-- R57: the snapped offset: the tone itself, else the tone one below, else the tone one above. -/
def snapOffset (k : ScaleKind) (o : Nat) : Nat :=
  if k.isTone o then o else if k.isTone (o - 1) then o - 1 else o + 1

/-- R57: the index of a snapped offset in the tone table. -/
def toneIndex (k : ScaleKind) (o : Nat) : Nat := (List.finRange 7).findIdx fun i => k.tones[i] == o

/-- R57: the snapped note s′ of a held note. -/
def snappedNote (key : Key) (held : Nat) : Int :=
  let o := (((held : Int) - key.pc.val) % 12).toNat
  held - o + snapOffset key.kind o

/-- R58: the absolute degree of the snapped note. -/
def absoluteDegree (key : Key) (held : Nat) : Int :=
  let d := snappedNote key held - key.pc.val
  7 * (d / 12) + toneIndex key.kind (d % 12).toNat

/-- R59: the unfolded note of an absolute degree. -/
def noteOfDegree (key : Key) (degree : Int) : Int :=
  key.pc.val + key.kind.tones[(⟨(degree % 7).toNat, by omega⟩ : Fin 7)] + 12 * (degree / 7)

/-- R60: an unfolded note folded into the lane LOW..LOW + SPAN by whole octaves, from the side it lies on. -/
def foldIntoLane (low span : Nat) (t : Int) : Int :=
  if t < low then low + (t - low) % 12
  else if low + span < t then low + span - (low + span - t) % 12
  else t

/-- R59, R60: the candidate that a step count gives a voice. -/
def candidate (key : Key) (held : Nat) (c : VoiceConfig) (steps : Int) : Nat :=
  (foldIntoLane c.laneLow c.laneSpan (noteOfDegree key (absoluteDegree key held + steps))).toNat

/-- R59, R60: a voice with the two candidates of the hop. -/
def Voice.withCandidates (key : Key) (held : Nat) (rules : Vector IntervalRule 4) (vo : Voice) : Voice :=
  { vo with
    plan := { vo.plan with
      primary := some (candidate key held vo.cfg rules[vo.cfg.rule].primary)
      alternate := some (candidate key held vo.cfg rules[vo.cfg.rule].alternate) } }

/-- R56: a voice at a hop with no held note. -/
def Voice.withoutCandidates (vo : Voice) : Voice :=
  { vo with plan := { vo.plan with primary := none, alternate := none } }

/-! ## The sounding set and the contest -/

/-- An entry of the sounding set, tagged by its origin (R81, R82). -/
inductive Sounding where
  | peerLead (station : Station) (note : Nat)
  | peerClaim (station : Station) (voice : VoiceIx) (note : Nat) (firm : Bool)
  | ownLead (note : Nat)
  | ownVoice (voice : VoiceIx) (note : Nat)
  deriving DecidableEq, Repr

/-- The note of an entry. -/
def Sounding.note : Sounding → Nat
  | .peerLead _ n => n
  | .peerClaim _ _ n _ => n
  | .ownLead n => n
  | .ownVoice _ n => n

/-- R81: the PEER-LEAD entry of a station. -/
def State.peerLeadEntry (s : State) (p : Station) : List Sounding :=
  match s.soundingLead p with
  | some (n, _) => [.peerLead p n]
  | none => []

/-- R81, R125: the PEER-CLAIM entries of a station. -/
def State.peerClaimEntries (s : State) (p : Station) : List Sounding :=
  match s.peers[p] with
  | some r =>
    (List.finRange 8).filterMap fun v =>
      match r.claims[v] with
      | some c => some (.peerClaim p v c.note c.firm)
      | none => none
  | none => []

/-- R81: the sounding set before voice 0's contest. -/
def State.soundingSet (s : State) (held : Nat) : List Sounding :=
  (List.finRange 8).flatMap s.peerLeadEntry ++ (List.finRange 8).flatMap s.peerClaimEntries ++ [.ownLead held]

/-- R83: the collision test. -/
def collides (byClass : Bool) (a b : Nat) : Bool := if byClass then a % 12 == b % 12 else a == b

/-- R85: the station wins the precedence test. -/
def winsPrecedence (ownFirm : Bool) (own : Station) (firm : Bool) (peer : Station) : Bool :=
  if ownFirm = firm then own.val < peer.val else ownFirm

/-- R85: the own firmness for a candidate: a firm claim on exactly that note. -/
def Voice.firmOn (vo : Voice) (n : Nat) : Bool :=
  match vo.plan.claim with
  | some c => c.firm && c.note == n
  | none => false

/-- R84: a candidate loses against one entry. -/
def losesTo (byClass : Bool) (own : Station) (vo : Voice) (n : Nat) (e : Sounding) : Bool :=
  collides byClass n e.note &&
    match e with
    | .peerClaim p _ _ firm => !winsPrecedence (vo.firmOn n) own firm p
    | _ => true

/-- R84: a candidate passes against the whole sounding set. -/
def passes (byClass : Bool) (own : Station) (set : List Sounding) (vo : Voice) (n : Nat) : Bool :=
  !set.any (losesTo byClass own vo n)

/-- R86: the voice takes its primary candidate, which passed. -/
def Voice.takePrimary (vo : Voice) : Voice :=
  { vo with
    plan := { vo.plan with decided := vo.plan.primary, onAlternate := false, freeCount := 0, doubled := false } }

/-- R86, R88: the voice takes or keeps its alternate candidate, which passed, with the free count given. -/
def Voice.takeAlternate (free : Nat) (vo : Voice) : Voice :=
  { vo with
    plan := { vo.plan with decided := vo.plan.alternate, onAlternate := true, freeCount := free, doubled := false } }

/-- R87: both candidates lost. -/
def Voice.byPolicy (double : Bool) (vo : Voice) : Voice :=
  if double then
    { vo with plan := { vo.plan with decided := vo.plan.primary, onAlternate := false, freeCount := 0, doubled := true } }
  else
    { vo with plan := { vo.plan with decided := none, onAlternate := false, freeCount := 0 } }

/-- R88: the return to the primary, when the free count of a voice on its alternate has reached SETTLE. -/
def Voice.returnDue (settle : Nat) (vo : Voice) : Bool :=
  vo.plan.claim.isSome && vo.plan.onAlternate && decide (settle ≤ vo.plan.freeCount)

/-- R86: the contest of a voice whose on-alternate flag is 0. -/
def Voice.contestPrimary (double primaryPasses alternatePasses : Bool) (vo : Voice) : Voice :=
  if primaryPasses then vo.takePrimary
  else if alternatePasses then vo.takeAlternate 0
  else vo.byPolicy double

/-- R88: the contest of a voice that holds a claim on its alternate. -/
def Voice.contestAlternate (settle : Nat) (double primaryPasses alternatePasses : Bool) (vo : Voice) : Voice :=
  if primaryPasses then
    let up := { vo with plan := { vo.plan with freeCount := vo.plan.freeCount + 1 } }
    if up.returnDue settle then up.takePrimary
    else if alternatePasses then up.takeAlternate up.plan.freeCount
    else up.takePrimary
  else if alternatePasses then vo.takeAlternate 0
  else vo.byPolicy double

/-- R80: a contest is held for a voice. -/
def Voice.contested (part : PartState) (voiced : Bool) (vo : Voice) : Bool :=
  vo.plan.claim.isSome ||
    (decide (part = .live) && voiced &&
      (decide (vo.eng.state = .idle) || (decide (vo.eng.state = .fade) && !vo.eng.disablePending)))

/-- R80, R86, R88: one voice's contest against the sounding set; a voice that has none is left with no decided note. -/
def State.contestVoice (s : State) (set : List Sounding) (vo : Voice) : Voice :=
  let pass := fun n => passes s.cfg.collideClass s.sc.station set vo n
  let double := s.cfg.rules[vo.cfg.rule].double
  if vo.contested s.sc.part s.pt.record.voiced then
    if vo.plan.claim.isSome ∧ vo.plan.onAlternate then
      vo.contestAlternate s.cfg.settle double (vo.plan.primary.any pass) (vo.plan.alternate.any pass)
    else vo.contestPrimary double (vo.plan.primary.any pass) (vo.plan.alternate.any pass)
  else { vo with plan := { vo.plan with decided := none } }

/-- R82: the OWN-VOICE entry of a voice that has been given a note. -/
def Voice.ownEntry (v : VoiceIx) (vo : Voice) : List Sounding :=
  match vo.plan.decided with
  | some n => [.ownVoice v n]
  | none => []

/-- R82: the contests of the voices given, in order, the sounding set growing by each decided note. -/
def State.contestFrom (s : State) : List VoiceIx → List Sounding → Vector Voice 8 → Vector Voice 8
  | [], _, voices => voices
  | v :: vs, set, voices =>
    let vo := s.contestVoice set voices[v]
    s.contestFrom vs (set ++ vo.ownEntry v) (voices.set v vo)

/-- R80 to R88: all contests of a hop with a held note. -/
def State.contestAll (s : State) (held : Nat) : State :=
  { s with voices := s.contestFrom (List.finRange 8) (s.soundingSet held) s.voices }

/-! ## Target, glide, shift and period -/

/-- R62: the target cents of a decided note. -/
def targetCents (note : Nat) (deviation : Int) (follow : Nat) : Int :=
  100 * note + roundHalfAway (deviation * follow) 100

/-- R64: the current cents moved toward the target by the glide. -/
def glideTo (glide : Nat) (target cents : Int) : Int :=
  if glide = 0 ∨ |target - cents| ≤ glide then target
  else if cents < target then cents + glide
  else cents - glide

/-- R63, R68: a voice that RAISE at a voiced hop will take into ONSET. -/
def Voice.willEnter (voiced : Bool) (vo : Voice) : Bool :=
  voiced && (decide (vo.eng.state = .idle) || decide (vo.eng.state = .fade))

/-- R65, R66: shift and synthesis period from current cents, with the range-clamp flag set by either clamp. -/
def Voice.withShift (pair : VoicedPair) (cents : Int) (vo : Voice) : Voice :=
  let shift := clampInt (-1900) 1900 (cents - pair.cents)
  let period := clampNat 320 25600 (synthesisPeriod pair.period shift)
  { vo with
    plan := { vo.plan with cents := cents, shift := shift, period := period }
    eng := { vo.eng with
      rangeClamp := vo.eng.rangeClamp || decide (shift ≠ cents - pair.cents)
        || decide (period ≠ synthesisPeriod pair.period shift) } }

/-- R62 to R67: a voice's target, current cents, shift and period at a hop with a held note. -/
def Voice.computeShift (rules : Vector IntervalRule 4) (deviation : Int) (pair : VoicedPair) (voiced : Bool)
    (vo : Voice) : Voice :=
  match vo.plan.decided with
  | none => vo
  | some n =>
    let target := targetCents n deviation rules[vo.cfg.rule].follow
    if vo.willEnter voiced then vo.withShift pair target
    else if vo.eng.state.sounding then vo.withShift pair (glideTo rules[vo.cfg.rule].glide target vo.plan.cents)
    else vo

/-- R55 to R67: the planner's evaluation of a synced hop, up to the hand-over. -/
def State.planVoices (s : State) : State :=
  match s.cu.held with
  | none => s.mapVoices fun _ vo => vo.withoutCandidates
  | some n =>
    let s1 := (s.mapVoices fun _ vo => vo.withCandidates s.cu.key n s.cfg.rules).contestAll n
    s1.mapVoices fun _ vo => vo.computeShift s.cfg.rules (s.deviation n) s.pt.lastVoiced s.pt.record.voiced

end Sys2Proof.Machine
end

