-- ==== Sys2Proof/Machine/Tracker.lean ====
section
/-! DEFINITION. The Input Stage's level and the Pitch Tracker's work at a synced hop: the record and the mark list
(R9, R17 to R34). -/

namespace Sys2Proof.Machine

/-- R9: the level of the hop's 256 conditioned samples. -/
def HistoryMemory.hopLevel (h : HistoryMemory) : Int :=
  levelOf ((h.newestSamples 256).foldl (fun acc x => acc + (x * x).toNat) 0)

/-- R19: the difference at one lag, over samples given newest first. -/
def difference (xs : List Int) (lag : Nat) : Nat :=
  (List.zipWith (fun a b => ((a - b) * (a - b)).toNat) (xs.take 600) ((xs.drop lag).take 600)).foldl (· + ·) 0

/-- R20: the normalized differences from lag `lag` on, `sum` being S(lag − 1). -/
def normalize (lag sum : Nat) : List Nat → List Nat
  | [] => []
  | d :: ds =>
    (if sum + d = 0 then 4096 else 4096 * d * lag / (sum + d)) :: normalize (lag + 1) (sum + d) ds

/-- R19, R20: n(1) to n(600) in order, from the 1200 newest samples, newest first. -/
def normalizedDifferences (xs : List Int) : List Nat :=
  normalize 1 0 ((List.range 600).map fun i => difference xs (i + 1))

/-- n(τ) from the list of R20. -/
def atLag (ns : List Nat) (lag : Nat) : Nat := ns.getD (lag - 1) 0

/-- R21: the chosen lag: the first dip below 614 that stops falling, or else the least value, the smallest lag on ties. -/
def chooseLag (ns : List Nat) : Nat :=
  match (List.range 560).find? fun i =>
      atLag ns (i + 40) < 614 && atLag ns (i + 40) ≤ atLag ns (i + 41) with
  | some i => i + 40
  | none =>
    (List.range 561).foldl (fun best i => if atLag ns (i + 40) < atLag ns best then i + 40 else best) 40

/-- R22: 16 × (τ* + δ) rounded, for a dip b between a and c, δ clamped to a half either way. -/
def refinePeriod (lag : Nat) (a b c : Int) : Int :=
  let q := a - 2 * b + c
  if q ≤ 0 then 16 * lag
  else if q ≤ a - c then 16 * lag + 8
  else if a - c ≤ -q then 16 * lag - 8
  else roundHalfUp (16 * lag * q + 8 * (a - c)) q.toNat

/-- R22: the period P of the chosen lag, clamped to 640..9600. -/
def periodOf (ns : List Nat) (lag : Nat) : Nat :=
  let p :=
    if 41 ≤ lag ∧ lag ≤ 599 then
      refinePeriod lag (atLag ns (lag - 1)) (atLag ns lag) (atLag ns (lag + 1))
    else 16 * (lag : Int)
  (clampInt 640 9600 p).toNat

/-- R23: the confidence of a dip. -/
def confidenceOf (n : Nat) : Nat := 255 - min 255 (255 * n / 4096)

/-- R18: the record of a hop whose analysis does not run. -/
def PitchRecord.unanalysed (old : PitchRecord) (level : Int) : PitchRecord :=
  { old with voiced := false, confidence := 0, level := level }

/-- R18 to R25: the record of a hop whose analysis runs on the 1200 newest samples. -/
def analyse (cfg : Setup) (xs : List Int) (level : Int) : PitchRecord :=
  let ns := normalizedDifferences xs
  let lag := chooseLag ns
  let p := periodOf ns lag
  let conf := confidenceOf (atLag ns lag)
  { voiced := cfg.voicedThreshold ≤ conf && cfg.gate ≤ level
    period := p
    confidence := conf
    cents := leadCents p
    level := level }

/-- R17, R18: the record of a hop. -/
def State.hopRecord (s : State) (level : Int) : PitchRecord :=
  if s.hm.fill < 1200 then s.pt.record.unanalysed level
  else analyse s.cfg (s.hm.newestSamples 1200) level

/-- R29: a period in whole samples, Pm of a mark or the step of a hop. -/
def wholeSamples (period : Nat) : Nat := (period + 8) / 16

/-- R30: ageing: every mark before W − 4095 + 2 × Pm is removed. -/
def ageMarks (w : SampleNumber) (marks : List Mark) : List Mark :=
  marks.filter fun m => distance m.pos w ≤ 4095 - 2 * (wholeSamples m.period : Int)

/-- R33: a mark is added at the newest end; at 24 marks the oldest goes first. -/
def addMark (marks : List Mark) (m : Mark) : List Mark :=
  (if marks.length < 24 then marks else marks.drop 1) ++ [m]

/-- R31: the row continues from its newest mark by the hop's step for as long as the next position is W or earlier. -/
def continueRow (w : SampleNumber) (period : Nat) (marks : List Mark) (newest : Mark) : List Mark :=
  let step := wholeSamples period
  (List.range ((distance newest.pos w).toNat / step)).foldl
    (fun ms i => addMark ms { pos := newest.pos + BitVec.ofNat 32 ((i + 1) * step), period := period }) marks

/-- R32: how far before W the loudest of the `n` newest samples lies, the newest on ties. -/
def loudestBack (h : HistoryMemory) (n : Nat) : Nat :=
  (List.range n).foldl
    (fun best j =>
      if (h.read (h.newest - BitVec.ofNat 32 best)).toInt.natAbs < (h.read (h.newest - BitVec.ofNat 32 j)).toInt.natAbs
      then j else best) 0

/-- R32: a new row starts with one mark, at the sample of greatest magnitude in a window of one step that lies after
every mark of the list. -/
def startRow (h : HistoryMemory) (period : Nat) (marks : List Mark) : List Mark :=
  let width :=
    match marks.getLast? with
    | some m => min (wholeSamples period) (distance m.pos h.newest).toNat
    | none => wholeSamples period
  addMark marks { pos := h.newest - BitVec.ofNat 32 (loudestBack h width), period := period }

/-- R30 to R34: the mark work of a hop whose record is `new` and whose previous-hop voiced flag is `prev`. -/
def markWork (h : HistoryMemory) (new : PitchRecord) (prev : Bool) (marks : List Mark) : List Mark :=
  let aged := ageMarks h.newest marks
  if new.voiced then
    match aged.getLast? with
    | some m => if prev then continueRow h.newest new.period aged m else startRow h new.period aged
    | none => startRow h new.period aged
  else aged

/-- R26: the last voiced pair after a record. -/
def VoicedPair.after (old : VoicedPair) (new : PitchRecord) : VoicedPair :=
  if new.voiced then { period := new.period, cents := new.cents } else old

/-- R9, R17: the Input Stage's and the Pitch Tracker's work at a synced hop. -/
def State.trackerWork (s : State) : State :=
  let level := s.hm.hopLevel
  let new := s.hopRecord level
  { s with
    inp := { s.inp with level := level }
    pt :=
      { record := new
        lastVoiced := s.pt.lastVoiced.after new
        marks := markWork s.hm new s.pt.record.voiced s.pt.marks
        prevVoiced := s.pt.record.voiced } }

/-- R27: the record at a sync loss. -/
def PitchRecord.silenced (r : PitchRecord) : PitchRecord := { r with voiced := false, confidence := 0 }

end Sys2Proof.Machine
end

