-- ==== Sys2Proof/Machine/Renderer.lean ====
section
/-! DEFINITION. The Voice Renderer and the hand-over: grains, epochs, envelope, per-sample work, gain commands and the claim
changes that follow them (R68, R72 to R78, R129 to R147). -/

namespace Sys2Proof.Machine

/-! ## Grains and epochs -/

/-- R139: a mark qualifies as a source: a full period of history follows it, and its grain's first sample is retained. -/
def Mark.qualifies (w : SampleNumber) (m : Mark) : Bool :=
  (wholeSamples m.period : Int) ≤ distance m.pos w && distance m.pos w + wholeSamples m.period ≤ 4095

/-- R139: the newest qualifying mark of the list. -/
def sourceMark (w : SampleNumber) (marks : List Mark) : Option Mark := marks.reverse.find? (·.qualifies w)

/-- R139: the grain cut from a mark, at index 0. -/
def Mark.grain (m : Mark) : Grain where
  mark := m.pos
  period := m.period
  index := 0
  remaining := 2 * wholeSamples m.period

/-- R142: a grain joins the list; with 4 in flight the oldest ends and the cut counter counts it. -/
def Engine.addGrain (e : Engine) (g : Grain) : Engine :=
  if e.grains.length < 4 then { e with grains := e.grains ++ [g] }
  else { e with grains := e.grains.drop 1 ++ [g], cut := bump e.cut }

/-- What the voice engines read from the other blocks (R139, R141, R133). -/
structure RenderEnv where
  marks : List Mark
  history : HistoryMemory
  holdLimit : Nat
  deriving DecidableEq, Repr

/-- The renderer's view of a state. -/
def State.renderEnv (s : State) : RenderEnv where
  marks := s.pt.marks
  history := s.hm
  holdLimit := s.cfg.holdLimit

/-- R140: what a starved epoch does, and whether it takes the voice out of HOLD with a DROP. -/
def Voice.starved (vo : Voice) : Voice × Bool :=
  let counted := { vo with eng := { vo.eng with starve := bump vo.eng.starve } }
  match vo.eng.state with
  | .onset => (counted, false)
  | .sound => (counted, false)
  | .hold => (counted.toFade, true)
  | _ => (vo, false)

/-- R139, R140, R142: a grain start, and whether a DROP is offered. -/
def Voice.startGrain (env : RenderEnv) (vo : Voice) : Voice × Bool :=
  match sourceMark env.history.newest env.marks with
  | some m => ({ vo with eng := vo.eng.addGrain m.grain }, false)
  | none => vo.starved

/-- R134, R138: epochs run in ONSET, SOUND and HOLD, and in FADE while the envelope is above 0. -/
def Engine.runsEpochs (e : Engine) : Bool := e.state.sounding || (decide (e.state = .fade) && decide (0 < e.envelope))

/-- R138: the epoch, when the counter has reached 0 or less: the counter gains the reload buffer and a grain starts. -/
def Voice.epochDue (env : RenderEnv) (vo : Voice) : Voice × Bool :=
  if vo.eng.runsEpochs ∧ vo.eng.epoch ≤ 0 then
    Voice.startGrain env { vo with eng := { vo.eng with epoch := vo.eng.epoch + vo.eng.reload } }
  else (vo, false)

/-- R137 step 1: the counter falls by 16 where epochs run, and the epoch is taken when it comes due. -/
def Voice.epochStep (env : RenderEnv) (vo : Voice) : Voice × Bool :=
  if vo.eng.runsEpochs then Voice.epochDue env { vo with eng := { vo.eng with epoch := vo.eng.epoch - 16 } }
  else (vo, false)

/-! ## Envelope and output -/

/-- R144: the attack step. -/
def VoiceConfig.attackStep (c : VoiceConfig) : Nat := 32767 / (256 * c.attack)

/-- R144: the release step. -/
def VoiceConfig.releaseStep (c : VoiceConfig) : Nat := 32767 / (256 * c.release)

/-- R137 step 2, R144: one step of the envelope's ramp. -/
def Voice.envelopeStep (vo : Voice) : Voice :=
  match vo.eng.state with
  | .fade => { vo with eng := { vo.eng with envelope := vo.eng.envelope - vo.cfg.releaseStep } }
  | .off => vo
  | .idle => vo
  | _ => { vo with eng := { vo.eng with envelope := min 32767 (vo.eng.envelope + vo.cfg.attackStep) } }

/-- R141: a grain's sample at its present index. -/
def Grain.sample (h : HistoryMemory) (g : Grain) : Int :=
  let pm := wholeSamples g.period
  let x := (h.read (g.mark - BitVec.ofNat 32 pm + BitVec.ofNat 32 g.index)).toInt
  roundHalfUp (x * hann pm g.index) 32768

/-- R143: the voice sample from the grains in the list and the envelope; an OFF or IDLE engine hands over 0 (R137). -/
def Voice.output (h : HistoryMemory) (vo : Voice) : Int :=
  match vo.eng.state with
  | .off => 0
  | .idle => 0
  | _ =>
    clampInt (-8388608) 8388607
      (roundHalfUp ((vo.eng.grains.foldl (fun acc g => acc + g.sample h) 0) * vo.eng.envelope) 32768)

/-! ## Advance and the end tests -/

/-- R137 step 4: every grain's index and remaining length move on by one. -/
def Voice.advanceGrains (vo : Voice) : Voice :=
  { vo with
    eng := { vo.eng with
      grains := vo.eng.grains.map fun g => { g with index := g.index + 1, remaining := g.remaining - 1 } } }

/-- R137 step 4: grains whose remaining length has reached 0 are removed. -/
def Voice.endGrains (vo : Voice) : Voice :=
  { vo with eng := { vo.eng with grains := vo.eng.grains.filter fun g => 0 < g.remaining } }

/-- R132: ONSET becomes SOUND when the envelope is 32767. -/
def Voice.attackComplete (vo : Voice) : Voice :=
  if vo.eng.state = .onset ∧ 32767 ≤ vo.eng.envelope then { vo with eng := { vo.eng with state := .sound } } else vo

/-- R134: FADE ends when the envelope is 0 and no grain is in flight, in OFF when a disable is pending and IDLE otherwise. -/
def Voice.fadeEnd (vo : Voice) : Voice :=
  if vo.eng.state = .fade ∧ vo.eng.envelope = 0 ∧ vo.eng.grains = [] then
    { vo with eng := { vo.eng with state := if vo.eng.disablePending then .off else .idle, disablePending := false } }
  else vo

/-- R133: a voice in HOLD whose timer has reached 256 × HOLDLIMIT enters FADE, with a DROP. -/
def Voice.holdLimitDue (limit : Nat) (vo : Voice) : Voice × Bool :=
  if vo.eng.state = .hold ∧ 256 * limit ≤ vo.eng.holdTimer then (vo.toFade, true) else (vo, false)

/-- R137 step 6: the hold timer; `counts` is false at the sample at which the voice entered HOLD (R133). -/
def Voice.holdStep (limit : Nat) (counts : Bool) (vo : Voice) : Voice × Bool :=
  if vo.eng.state = .hold ∧ counts then
    Voice.holdLimitDue limit { vo with eng := { vo.eng with holdTimer := vo.eng.holdTimer + 1 } }
  else (vo, false)

/-- What an engine's per-sample work gives: the voice, its voice sample, and whether a DROP is offered. -/
structure SampleWork where
  voice : Voice
  sample : Int
  drop : Bool
  deriving DecidableEq, Repr

/-- R137: the six steps of the per-sample work of an engine that is not OFF or IDLE. -/
def Voice.runSample (env : RenderEnv) (counts : Bool) (vo : Voice) : SampleWork :=
  let a := vo.epochStep env
  let b := a.1.envelopeStep
  let c := b.advanceGrains.endGrains.attackComplete.fadeEnd
  let d := c.holdStep env.holdLimit counts
  { voice := d.1, sample := b.output env.history, drop := a.2 || d.2 }

/-- R137: the per-sample work of one engine; an engine in OFF or IDLE hands over 0 and does nothing else. -/
def Voice.sampleWork (env : RenderEnv) (counts : Bool) (vo : Voice) : SampleWork :=
  match vo.eng.state with
  | .off => { voice := vo, sample := 0, drop := false }
  | .idle => { voice := vo, sample := 0, drop := false }
  | _ => vo.runSample env counts

/-- A voice put back with the DROP its own event offers, if any (R76). -/
def State.putVoice (v : VoiceIx) (r : Voice × Bool) (s : State) : State :=
  (s.setVoice v r.1).offerSome (if r.2 then some (.drop v) else none)

/-- R137: the per-sample work of every engine, with `counts` telling whose hold timer counts; the eight engines work
independently, and their DROPs are offered in index order. -/
def State.renderSample (counts : Vector Bool 8) (s : State) : State :=
  (List.finRange 8).foldl
    (fun t v =>
      let r := s.voices[v].sampleWork s.renderEnv counts[v]
      t.putVoice v (r.voice, r.drop)) s

/-- R137: the voice samples of that work. -/
def State.voiceSamples (counts : Vector Bool 8) (s : State) : Vector Int 8 :=
  Vector.ofFn fun v => (s.voices[v].sampleWork s.renderEnv counts[v]).sample

/-! ## The hand-over -/

/-- R131: an entry to ONSET; the grain started counts as an epoch in ONSET for the starve counter. -/
def Voice.enterOnset (env : RenderEnv) (vo : Voice) : Voice :=
  let envelope := if vo.eng.state = .fade then vo.eng.envelope else 0
  (Voice.startGrain env { vo with
    eng := { vo.eng with state := .onset, disablePending := false, epoch := vo.eng.reload, envelope := envelope } }).1

/-- R130: a RAISE at an unvoiced hop takes an ONSET or SOUND voice to HOLD or FADE. -/
def Voice.loseLead (holdLimit : Nat) (vo : Voice) : Voice :=
  if vo.cfg.fadeOnLoss = false ∧ 0 < holdLimit then
    { vo with eng := { vo.eng with state := .hold, holdTimer := 0 } }
  else vo.toFade

/-- R130: an engine acts on its gain command, `raise` for RAISE, and the hop's voiced flag. -/
def Voice.gainCommand (env : RenderEnv) (raise voiced : Bool) (vo : Voice) : Voice :=
  match vo.eng.state, raise, voiced with
  | .off, _, _ => vo
  | .idle, true, true => vo.enterOnset env
  | .idle, _, _ => vo
  | .fade, true, true => vo.enterOnset env
  | .fade, _, _ => vo
  | .onset, true, true => vo
  | .sound, true, true => vo
  | .hold, true, true => { vo with eng := { vo.eng with state := .sound } }
  | .onset, true, false => vo.loseLead env.holdLimit
  | .sound, true, false => vo.loseLead env.holdLimit
  | .hold, true, false => vo
  | _, false, _ => vo.toFade

/-- A voice with a claim in place of the one it held, or of none, its refresh count at 0 (R73, R74, R77). -/
def Voice.withClaim (c : LocalClaim) (vo : Voice) : Voice :=
  { vo with plan := { vo.plan with claim := some c, refreshCount := 0 } }

/-- R75: a soft claim whose settle count has reached SETTLE becomes firm, with a firm CLAIM. -/
def Voice.firmDue (settle : Nat) (v : VoiceIx) (vo : Voice) : Voice × Option Entry :=
  match vo.plan.claim with
  | some c =>
    if c.firm = false ∧ settle ≤ c.settle then
      (vo.withClaim { c with firm := true }, some (vo.claimEntry v { c with firm := true }))
    else (vo, none)
  | none => (vo, none)

/-- R75: the settle count of a soft claim counts a hop in ONSET and SOUND. -/
def Voice.settleStep (vo : Voice) : Voice :=
  match vo.plan.claim with
  | some c =>
    if c.firm = false ∧ (vo.eng.state = .onset ∨ vo.eng.state = .sound) then
      { vo with plan := { vo.plan with claim := some { c with settle := c.settle + 1 } } }
    else vo
  | none => vo

/-- R77: a claim whose refresh count has reached REFRESH is queued again as it stands, and the count is 0. -/
def Voice.refreshDue (refresh : Nat) (v : VoiceIx) (vo : Voice) : Voice × Option Entry :=
  match vo.plan.claim with
  | some c =>
    if refresh ≤ vo.plan.refreshCount then (vo.withClaim c, some (vo.claimEntry v c)) else (vo, none)
  | none => (vo, none)

/-- R75, R77: the settle and refresh counts of a claim that this hop neither created, replaced nor removed. -/
def Voice.claimStands (cfg : Setup) (v : VoiceIx) (vo : Voice) : Voice × Option Entry :=
  let a := vo.settleStep.firmDue cfg.settle v
  match a.2 with
  | some e => (a.1, some e)
  | none =>
    Voice.refreshDue cfg.refresh v
      { a.1 with plan := { a.1.plan with refreshCount := a.1.plan.refreshCount + 1 } }

/-- R72 to R77: a voice's claim after the gain command: created at an entry to ONSET, removed with a DROP at an entry to
FADE, replaced when the decided note differs, and otherwise settled and refreshed; `before` is the voice as it stood. -/
def Voice.claimWork (cfg : Setup) (v : VoiceIx) (before after : Voice) : Voice × Option Entry :=
  if before.eng.state.sounding then
    if after.eng.state.sounding then
      match after.plan.claim, after.plan.decided with
      | some c, some n =>
        if n = c.note then after.claimStands cfg v
        else
          let c' : LocalClaim := { note := n, firm := false, settle := 0 }
          (after.withClaim c', some (after.claimEntry v c'))
      | _, _ => (after, none)
    else (after, some (.drop v))
  else if after.eng.state.sounding then
    match after.plan.decided with
    | some n =>
      let c : LocalClaim := { note := n, firm := false, settle := 0 }
      (after.withClaim c, some (after.claimEntry v c))
    | none => (after, none)
  else (after, none)

/-- R68, R130, R72 to R77: the hand-over to one voice: its Ps goes into the reload buffer, its engine acts on its gain
command, and its claim follows. -/
def Voice.handOver (env : RenderEnv) (cfg : Setup) (voiced : Bool) (v : VoiceIx) (vo : Voice) : Voice × Option Entry :=
  let loaded := { vo with eng := { vo.eng with reload := vo.plan.period } }
  Voice.claimWork cfg v loaded (loaded.gainCommand env vo.plan.decided.isSome voiced)

/-- R68, R78: the hand-over to every voice; the entries are queued voice by voice in index order. -/
def State.handOverAll (s : State) : State :=
  (List.finRange 8).foldl
    (fun t v =>
      let r := s.voices[v].handOver s.renderEnv s.cfg s.pt.record.voiced v
      (t.setVoice v r.1).offerSome r.2) s

/-- The planner's and the renderer's work at a synced hop (R55, R68, R78). -/
def State.plannerWork (s : State) : State := s.planVoices.handOverAll

/-! ## Stops and enables -/

/-- R136: one voice stopped at a sync loss, and whether its DROP is queued. -/
def Voice.stop (vo : Voice) : Voice × Bool :=
  let base := if vo.eng.state.sounding then vo.withoutClaim else vo
  let state := match vo.eng.state with
    | .off => VoiceState.off
    | .idle => .idle
    | _ => if vo.cfg.enabled then .idle else .off
  ({ base with eng := { vo.eng with state := state, disablePending := false, envelope := 0, grains := [] } },
    vo.eng.state.sounding)

/-- R76, R136: every voice is stopped; the DROPs are queued in index order. -/
def State.stopVoices (s : State) : State :=
  (List.finRange 8).foldl (fun t v => t.putVoice v s.voices[v].stop) s

/-- R135: at entry to STANDBY every voice in ONSET, SOUND or HOLD enters FADE, with its DROP. -/
def State.fadeSounding (s : State) : State :=
  (List.finRange 8).foldl (fun t v => if s.voices[v].eng.state.sounding then t.fadeEntry v else t) s

/-- R129: a voice whose enable bit is written, and whether its DROP is offered. -/
def Voice.setEnable (bit : Bool) (vo : Voice) : Voice × Bool :=
  if vo.cfg.enabled = bit then (vo, false)
  else
    let w := { vo with cfg := { vo.cfg with enabled := bit } }
    match vo.eng.state, bit with
    | .off, true => ({ w with eng := { vo.eng with state := .idle } }, false)
    | .off, false => (w, false)
    | .idle, true => (w, false)
    | .idle, false => ({ w with eng := { vo.eng with state := .off } }, false)
    | .fade, b => ({ w with eng := { vo.eng with disablePending := !b } }, false)
    | _, true => (w, false)
    | _, false =>
      ({ w.toFade with eng := { w.toFade.eng with disablePending := true } }, true)

/-- R129: the enable bits of an ENABLE write, voice by voice. -/
def State.writeEnables (data : Word16) (s : State) : State :=
  (List.finRange 8).foldl (fun t v => t.putVoice v (s.voices[v].setEnable (data.getLsbD v.val))) s

end Sys2Proof.Machine
end

