-- ==== Sys2Proof/Machine/Hop.lean ====
section
/-! DEFINITION. The hop events: the synced hop, the free hop, and the blocks whose place within a hop the spec leaves open
(R6, R7, R35, R55, R108, R122, R165). -/

namespace Sys2Proof.Machine

/-- R165: the State Controller's look for a voiced onset, which wakes the part from STANDBY. -/
def State.onsetWork (s : State) : State :=
  if s.sc.part = .standby ∧ s.pt.record.voiced ∧ s.pt.prevVoiced = false ∧ s.sc.wakeOnVoice then s.returnToLive else s

/-- The blocks of a synced hop that the given order takes at a place: the ageing, then the onset (R40, R81, R165). -/
def State.atPlace (o : HopOrder) (p : Place) (s : State) : State :=
  let s1 := if o.ageing = p then s.ageing else s
  if o.onset = p then s1.onsetWork else s1

/-- A hop falls only outside INIT (R160, R128). -/
def State.hopsFall (s : State) : Bool := decide (s.sc.part ≠ .init)

/-- R6, R17, R35, R108, R55, R68: the work of a synced hop, the count back at 0. -/
def State.syncedHopWork (o : HopOrder) (s : State) : State :=
  let t := State.trackerWork { s with ap := { s.ap with hopCount := 0 } }
  let c := (t.atPlace o .beforeContext).contextWork
  let l := (c.1.atPlace o .afterContext).linkHopWork true c.2
  ((l.atPlace o .afterLink).plannerWork).atPlace o .afterPlanner

/-- R6: a synced hop falls when the hop count has reached 256. -/
def State.syncedHopDue (o : HopOrder) (s : State) : State :=
  if s.ap.syncPresent ∧ 256 ≤ s.ap.hopCount ∧ s.hopsFall then s.syncedHopWork o else s

/-- The order in which a due synced hop is taken that the queue of commands has left out before the next frame sync, sample
or sync loss. DESIGN CHOICE (log 5). -/
def lateHopOrder : HopOrder := { ageing := .beforeContext, onset := .beforeContext }

/-- A synced hop still due is taken before anything that comes a whole sample later (R6, log 5). -/
def State.settleHop (s : State) : State := s.syncedHopDue lateHopOrder

/-- The Peer Table's ageing at its place in a free hop (R40). -/
def State.ageAtPlace (o : HopOrder) (p : Place) (s : State) : State := if o.ageing = p then s.ageing else s

/-- R7, R35, R108, R122: the work of a free hop; the tracker, the planner and the renderer do nothing, and the onset of R165
belongs to synced hops. -/
def State.freeHopWork (o : HopOrder) (s : State) : State :=
  let c := (s.ageAtPlace o .beforeContext).contextWork
  let l := (c.1.ageAtPlace o .afterContext).linkHopWork false c.2
  (l.ageAtPlace o .afterLink).ageAtPlace o .afterPlanner

/-- R7: a free hop falls at the expiry of the free timer, which starts again. -/
def State.freeHop (o : HopOrder) (s : State) : State :=
  if s.ap.freeTimer ∧ s.hopsFall then s.freeHopWork o else s

end Sys2Proof.Machine
end

