-- ==== Sys2Proof/Machine/Mixer.lean ====
section
/-! DEFINITION. The Bus Mixer: weighting, summing, clip indication, MUTE and the transmit register (R148 to R154). -/

namespace Sys2Proof.Machine

/-- R150 step 1: the weighted sample of a voice. -/
def weighted (sample : Int) (gain : Nat) : Int := roundHalfUp (sample * gainFactor gain) 16384

/-- The voices mapped to a bus (R148). -/
def State.voicesOn (s : State) (b : BusIx) : List VoiceIx :=
  (List.finRange 8).filter fun v => s.voices[v].cfg.bus = b

/-- R150 step 2: the bus sum. -/
def State.busSum (s : State) (samples : Vector Int 8) (b : BusIx) : Int :=
  (s.voicesOn b).foldl (fun acc v => acc + weighted samples[v] s.voices[v].cfg.gain) 0

/-- R150 step 3: the scaled sum. -/
def State.scaledSum (s : State) (samples : Vector Int 8) (b : BusIx) : Int :=
  roundHalfUp (s.busSum samples b * gainFactor s.bm.buses[b].gain) 16384

/-- R150 step 4: the bus saturates when the scaled sum lies outside 24 bits. -/
def outside24 (x : Int) : Bool := x < -8388608 || 8388607 < x

/-- R151: a bus after a sample at which it did or did not saturate. -/
def Bus.afterSample (saturates : Bool) (b : Bus) : Bus :=
  if saturates then
    if b.clipState then b else { b with clipState := true, clipCount := bump b.clipCount }
  else { b with clipState := false }

/-- R151: the sample begins a clip episode on the bus. -/
def Bus.episode (saturates : Bool) (b : Bus) : Bool := saturates && !b.clipState

/-- R151: a voice on a saturating bus whose weighted sample is above a quarter of full scale is marked. -/
def Voice.markClip (saturates : Bool) (sample : Int) (vo : Voice) : Voice :=
  if saturates ∧ 2097152 < (weighted sample vo.cfg.gain).natAbs then
    { vo with eng := { vo.eng with clip := true } }
  else vo

/-- R150 to R153: the mixer's work for one received sample. -/
def State.mix (samples : Vector Int 8) (s : State) : State :=
  let sums : Vector Int 4 := Vector.ofFn fun b => s.scaledSum samples b
  let s1 := s.mapVoices fun v vo => vo.markClip (outside24 sums[vo.cfg.bus]) samples[v]
  let s2 := { s1 with
    bm := { s.bm with
      buses := Vector.ofFn fun b => s.bm.buses[b].afterSample (outside24 sums[b])
      tx := Vector.ofFn fun b => if s.bm.mute then 0 else saturate24 sums[b] } }
  if (List.finRange 4).any fun b => s.bm.buses[b].episode (outside24 sums[b]) then s2.raise .clip else s2

/-- R151, R154: the mixer at a sync loss: clip states and transmit register 0. -/
def BusMixer.atSyncLoss (m : BusMixer) : BusMixer :=
  { m with
    buses := Vector.ofFn fun b => { m.buses[b] with clipState := false }
    tx := Vector.replicate 4 0 }

end Sys2Proof.Machine
end

