-- ==== Sys2Proof/Machine/Audio.lean ====
section
/-! DEFINITION. The audio port's events: frame sync, received sample, sync loss, and a calibration's measurement (R1 to R16,
R137, R150 to R154). -/

namespace Sys2Proof.Machine

/-! ## Frame sync -/

/-- R3, R6, R7, R16, R29: the sync-return event, at the first frame sync taken in SYNC LOST. -/
def State.syncReturn (s : State) : State :=
  State.raise .sync { s with
    ap := { s.ap with syncPresent := true, hopCount := 0, freeTimer := false }
    hm := s.hm.empty
    pt := { s.pt with marks := [] } }

/-- R1, R153: a frame begins: slot 0 is open, the monitor's timer restarts, and the frame sends what the transmit register
holds. -/
def State.beginFrame (s : State) : State :=
  { s with ap := { s.ap with monitorTimer := true, slotOpen := true, sending := some s.bm.tx } }

/-- R1, R3, R153: a frame sync taken on AFSYNC. -/
def State.frameSync (s : State) : State :=
  let s1 := s.settleHop
  (if s1.ap.syncPresent then s1 else s1.syncReturn).beginFrame

/-! ## Calibration -/

/-- R11: the mean of a completed measurement, rounded. -/
def Measurement.mean (m : Measurement) : Int := roundHalfUp m.sum m.length

/-- R11: the offset and the clamp flag of a completed measurement. -/
def InputStage.complete (i : InputStage) (m : Measurement) : InputStage :=
  if 524287 < m.mean then { i with offset := 524287, calClamped := true }
  else if m.mean < -524287 then { i with offset := -524287, calClamped := true }
  else { i with offset := m.mean }

/-- R11: the measurement completes when its taken count has reached N. -/
def State.measurementDue (s : State) : State :=
  match s.inp.measurement with
  | some m => if m.length ≤ m.taken then State.endCalibration { s with inp := s.inp.complete m } else s
  | none => s

/-- R10: a raw sample is added to the running sum of a measurement in progress. -/
def InputStage.measure (i : InputStage) (raw : Int) : InputStage :=
  { i with measurement := i.measurement.map fun m => { m with sum := m.sum + raw, taken := m.taken + 1 } }

/-! ## A received sample -/

/-- R1: the raw sample of a 32-bit slot, its first 24 bits; the 8 trailing bits are ignored. -/
def rawSample (slot : BitVec 32) : Int := (slot.extractLsb' 8 24).toInt

/-- R8: the conditioned sample. -/
def InputStage.condition (i : InputStage) (raw : Int) : Sample := saturate24 (raw - i.offset)

/-- R1, R2, R8, R10, R14, R6: the sample is numbered, conditioned with the offset that stands, measured and written, and the
hop count advances. -/
def State.takeSample (raw : Int) (s : State) : State :=
  { s with
    hm := s.hm.write s.ap.sampleCounter (s.inp.condition raw)
    inp := s.inp.measure raw
    ap := { s.ap with
      sampleCounter := s.ap.sampleCounter + 1, hopCount := min 256 (s.ap.hopCount + 1), slotOpen := false } }

/-- R137, R150: the engines' work and the mixing of a sample; `counts` tells whose hold timer counts the sample. -/
def State.renderAndMix (counts : Vector Bool 8) (s : State) : State :=
  (s.renderSample counts).mix (s.voiceSamples counts)

/-- R133: the hold timers that count a sample at which a hop has been taken first: those of the voices that stood in HOLD
before the hop. -/
def State.holdsBefore (s : State) : Vector Bool 8 := Vector.ofFn fun v => decide (s.voices[v].eng.state = .hold)

/-- R1: a sample is received; a synced hop due at it may be taken before the engines' work (R69, R131, R133). DESIGN CHOICE: with
the hop first, no other event comes between the hop and that work, though R137 has them as two events (log 4). -/
def State.receiveSample (slot : BitVec 32) (hopFirst : Option HopOrder) (s : State) : State :=
  let t := (s.takeSample (rawSample slot)).measurementDue
  match hopFirst with
  | some o => (t.syncedHopDue o).renderAndMix t.holdsBefore
  | none => t.renderAndMix (Vector.replicate 8 true)

/-- R1, R2: the 32nd bit clock of slot 0; with no frame begun, or with sync lost, no sample is received. -/
def State.sampleReceived (slot : BitVec 32) (hopFirst : Option HopOrder) (s : State) : State :=
  let s1 := s.settleHop
  if s1.ap.slotOpen ∧ s1.ap.syncPresent then s1.receiveSample slot hopFirst else s1

/-! ## Sync loss -/

/-- R109: the LEAD offer of a sync loss, which sets the LEAD count to 0 as R109 has of every LEAD offer; the state table of
chapter 6 says of the count at a sync loss that it is kept. DEDUCED (log 32). -/
def State.lossLead (s : State) : State :=
  let s1 := if s.link.lastVoiced then s.offerLead else s
  { s1 with link := { s1.link with lastVoiced := false } }

/-- R12: a measurement in progress at a sync loss is abandoned. -/
def State.lossCalibration (s : State) : State := if s.inp.measurement.isSome then s.abandonCalibration else s

/-- R3, R6, R7, R27, R151, R154: what a sync loss sets in the audio port, the tracker and the mixer. -/
def State.lossBlocks (s : State) : State :=
  { s with
    ap := { s.ap with
      syncPresent := false, monitorTimer := false, hopCount := 0, freeTimer := true, slotOpen := false, sending := none }
    pt := { s.pt with record := s.pt.record.silenced }
    bm := s.bm.atSyncLoss }

/-- R3, R4: the sync-loss event, delivered to every consumer block. -/
def State.syncLoss (leadFirst : Bool) (s : State) : State :=
  let b := s.lossBlocks.lossCalibration
  (if leadFirst then b.lossLead.stopVoices else b.stopVoices.lossLead).raise .sync

/-- R3: the expiry of the monitor's timer, which runs in SYNC PRESENT only. -/
def State.monitorExpiry (leadFirst : Bool) (s : State) : State :=
  if s.ap.syncPresent ∧ s.ap.monitorTimer then s.settleHop.syncLoss leadFirst else s

end Sys2Proof.Machine
end

