-- ==== Sys2Proof/Machine/AudioEvents.lean ====
section
/-! DEFINITION. The meanings of the audio port's rows: FRAME_SYNC, SAMPLE_RECEIVED, SYNC_LOSS_EVENT, FREE_HOP, SYNCED_HOP,
MEASUREMENT_COMPLETES. -/

namespace Sys2Proof.Machine

/-- FRAME_SYNC (R1, R3, R153): a frame sync is taken on AFSYNC. -/
def execFrameSync (s : State) : Host.Outcome State Fault Refusal := whenReleased (·.frameSync) s

/-- SAMPLE_RECEIVED (R1, R137, R150): the 32nd bit clock of slot 0 of the frame begun. -/
def execSampleReceived (slot : BitVec 32) (hopFirst : Option HopOrder) (s : State) : Host.Outcome State Fault Refusal :=
  whenReleased (·.sampleReceived slot hopFirst) s

/-- SYNC_LOSS_EVENT (R3): the expiry of the sync monitor's timer. -/
def execSyncLossEvent (leadFirst : Bool) (s : State) : Host.Outcome State Fault Refusal :=
  whenReleased (·.monitorExpiry leadFirst) s

/-- FREE_HOP (R7): the expiry of the free timer. -/
def execFreeHop (order : HopOrder) (s : State) : Host.Outcome State Fault Refusal := whenReleased (·.freeHop order) s

/-- SYNCED_HOP (R6): the hop event of a hop count that has reached 256. -/
def execSyncedHop (order : HopOrder) (s : State) : Host.Outcome State Fault Refusal :=
  whenReleased (·.syncedHopDue order) s

/-- MEASUREMENT_COMPLETES (R11): the taken count has reached N; SAMPLE_RECEIVED takes it at once (log 3). -/
def execMeasurementCompletes (s : State) : Host.Outcome State Fault Refusal := whenReleased (·.measurementDue) s

end Sys2Proof.Machine
end

