-- ==== Sys2Proof/Machine/HopEvents.lean ====
section
/-! DEFINITION. The meanings of the rows that a hop's counts bring about: HOLD_LENGTH, DECISION_HOP, PERIODIC_LEAD,
PERIODIC_KEY, QUIET_HELLO, CLAIM_AGE_LIMIT, RECORD_LIMIT. Each takes place when its condition stands in the state and does
nothing otherwise; the hops take the same events at once as they bring the condition about (log 3). -/

namespace Sys2Proof.Machine

/-- R37, R109: the end of the hold with the LEAD that a held-note change offers. -/
def State.holdLengthEvent (s : State) : State :=
  if s.holdLengthEnd.cu.held = s.cu.held then s.holdLengthEnd else s.holdLengthEnd.offerLead

/-- R41, R51: a decision hop with the KEY that a context change offers. -/
def State.decisionEvent (s : State) : State :=
  if s.decisionDue.cu.key = s.cu.key then s.decisionDue else s.decisionDue.offerKey

/-- HOLD_LENGTH (R37): the hold count has passed eight. -/
def execHoldLength (s : State) : Host.Outcome State Fault Refusal := whenReleased (·.holdLengthEvent) s

/-- DECISION_HOP (R41): the decision count has reached 16. -/
def execDecisionHop (s : State) : Host.Outcome State Fault Refusal := whenReleased (·.decisionEvent) s

/-- PERIODIC_LEAD (R109): the LEAD count has reached 4 with the record voiced. -/
def execPeriodicLead (s : State) : Host.Outcome State Fault Refusal := whenReleased (·.periodicLeadDue) s

/-- PERIODIC_KEY (R110): the KEY count has reached 128. -/
def execPeriodicKey (s : State) : Host.Outcome State Fault Refusal := whenReleased (·.periodicKeyDue) s

/-- QUIET_HELLO (R111): the quiet count has reached REFRESH. -/
def execQuietHello (s : State) : Host.Outcome State Fault Refusal := whenReleased (·.quietHelloDue) s

/-- CLAIM_AGE_LIMIT (R122): the age of a peer's claim exceeds 3 × REFRESH. -/
def execClaimAgeLimit (p : Station) (v : VoiceIx) (s : State) : Host.Outcome State Fault Refusal :=
  whenReleased (·.claimAgeLimitDue p v) s

/-- RECORD_LIMIT (R123): the silence of a peer's record exceeds the record limit. -/
def execRecordLimit (p : Station) (s : State) : Host.Outcome State Fault Refusal := whenReleased (·.recordLimitDue p) s

end Sys2Proof.Machine
end

