-- ==== Sys2Proof/Machine/LinkEvents.lean ====
section
/-! DEFINITION. The meanings of the ensemble link's rows: START_FRAME, LOST_ARBITRATION, ECHO_MISMATCH, FRAME_SENT,
RECEIVE_FRAME, STUCK, RETURN_TO_ACTIVE. -/

namespace Sys2Proof.Machine

/-- START_FRAME (R96): the pair is idle and the station starts the frame its service order names. -/
def execStartFrame (s : State) : Host.Outcome State Fault Refusal := whenReleased (·.startFrame) s

/-- LOST_ARBITRATION (R97): a frame with a lower arbitration value goes on. -/
def execLostArbitration (winner : Byte) (s : State) : Host.Outcome State Fault Refusal :=
  whenReleased (fun t => { t with link := t.link.loseArbitration winner }) s

/-- ECHO_MISMATCH (R98): a bit reads differently from the bit driven. -/
def execEchoMismatch (s : State) : Host.Outcome State Fault Refusal :=
  whenReleased (fun t => { t with link := t.link.echoMismatch }) s

/-- FRAME_SENT (R98): the sixth stop bit reads back recessive. -/
def execFrameSent (s : State) : Host.Outcome State Fault Refusal :=
  whenReleased (fun t => { t with link := t.link.frameSent }) s

/-- RECEIVE_FRAME (R100): the receiver has taken a frame. -/
def execReceiveFrame (rx : Reception) (s : State) : Host.Outcome State Fault Refusal := whenReleased (·.receiveFrame rx) s

/-- STUCK (R103): the pair has been dominant for more than 1 ms. -/
def execStuck (s : State) : Host.Outcome State Fault Refusal := whenReleased (·.stuckEntry) s

/-- RETURN_TO_ACTIVE (R103): the pair has been recessive for 1 ms. -/
def execReturnToActive (s : State) : Host.Outcome State Fault Refusal := whenReleased (·.stuckReturn) s

end Sys2Proof.Machine
end

