-- ==== Sys2Proof/WellFormed.lean ====
section
/-! DEFINITION. Which operands make a command of its row: the checks that Syntax's types leave open. -/

namespace Sys2Proof

/-- The codes R166's table lists; any other code is unknown (R173). -/
def knownCode (code : Byte) : Bool := 1 ≤ code.toNat && code.toNat ≤ 8

/-- The words whose writes have a row of their own: ATTN_MASK, COMMAND, KEYCFG, ENABLE and RESET. -/
def ownRowAddress (addr : BitVec 6) : Bool :=
  addr == 0x03 || addr == 0x04 || addr == 0x11 || addr == 0x2B || addr == 0x3F

/-- A transaction that no reset fell into is complete when CSEL rises after exactly 24 bits and the fixed bit was 0 (R157). -/
def completeTransaction (nbits : Nat) (bits : BitVec 24) : Bool := nbits == 24 && !bits.getLsbD 16

/-- The operands fit the row: an unknown code is not a listed one, WRITE_WORD addresses a word without a row of its own,
and an abandoned transaction is not a complete one. -/
def Instr.wellFormed : Instr → Bool
  | .unknownCode code _ => !knownCode code
  | .writeWord addr _ => !ownRowAddress addr
  | .transactionAbandoned _ (some (.count nbits bits)) => !completeTransaction nbits bits
  | .powerOnReset _ | .pinReset _ | .reset _ | .initCompletion | .frameSync | .sampleReceived _ _ | .epoch _
  | .grainEnd _ | .attackComplete _ | .fadeEnd _ | .holdLimit _ | .syncLossEvent _ | .freeHop _ | .syncedHop _
  | .holdLength | .decisionHop | .periodicLead | .periodicKey | .quietHello | .returnToPrimary _ | .firming _
  | .claimRefresh _ | .claimAgeLimit _ _ | .recordLimit _ | .calibrateLong _ | .calibrateShort _
  | .measurementCompletes | .go _ | .standby _ | .wake _ | .pin _ | .unpin _ | .clear _ | .keycfg _ | .enable _
  | .mute _ | .attnMask _ | .attn _ | .context _ | .transactionAbandoned _ (some .byReset)
  | .transactionAbandoned _ none | .startFrame | .lostArbitration _ | .echoMismatch | .frameSent | .receiveFrame _
  | .stuck | .returnToActive | .pinResetAsserted => true

end Sys2Proof
end

