-- ==== Sys2Proof/Machine/Control.lean ====
section
/-! DEFINITION. The control port: commands, writes by access type and part state, the read-clear reads, and the resets
(R45 to R47, R157 to R171). -/

namespace Sys2Proof.Machine

/-! ## Resets -/

/-- R155, R167: a word reset; the straps stay as latched, a frame being sent is completed as it was latched at its start,
and the queue of waiting commands is not the part's. -/
def State.wordReset (s : State) : State :=
  let r := State.atReset .word { station := s.sc.station, solo := s.sc.solo } s.pending
  { r with ap := { r.ap with sending := s.ap.sending } }

/-- R167: while a power-on or pin reset is held, every block stands at its reset values, the free timer has not started, and
the start cause and the straps are those of before until the release. `pin` and `power` say which of the two is held, and
`seen` whether a power-on reset has occurred since the last release. -/
def State.holdReset (pin power seen : Bool) (s : State) : State :=
  let r := State.atReset s.sc.cause { station := s.sc.station, solo := s.sc.solo } s.pending
  { r with
    ap := { r.ap with freeTimer := false }
    sc := { r.sc with pinHeld := pin, powerOnHeld := power, powerOnSeen := seen } }

/-- R167: RSTN goes low. -/
def State.assertPinReset (s : State) : State := s.holdReset true s.sc.powerOnHeld s.sc.powerOnSeen

/-- R167: the supplies rise and a power-on reset is held, which counts as occurred from then on. -/
def State.powerOnRise (s : State) : State := s.holdReset s.sc.pinHeld true true

/-- R167: a power-on reset ends; with RSTN low the part is held on until its release. -/
def State.powerOnRelease (straps : Straps) (s : State) : State :=
  if s.sc.pinHeld then s.holdReset true false true else State.atReset .power straps s.pending

/-- R167: the two moments of a power-on reset. -/
def State.powerOn (phase : PowerOnPhase) (s : State) : State :=
  match phase with
  | .rise => s.powerOnRise
  | .valid straps => s.powerOnRelease straps

/-- R167: RSTN is released; with a power-on reset still held the part is held on until its end, and otherwise the start cause
is POWER when a power-on reset has occurred since the last release. -/
def State.pinRelease (straps : Straps) (s : State) : State :=
  if s.sc.powerOnHeld then s.holdReset false true true
  else State.atReset (if s.sc.powerOnSeen then .power else .pin) straps s.pending

/-- R160: the clearing of storage is done; the receiver waits for the pair to be idle, which the levels read in INIT may show. -/
def State.initDone (s : State) : State :=
  if s.sc.part = .init then
    State.raise .done { s with sc := { s.sc with part := .setup }, link := { s.link with receiver := s.link.receiver.await } }
  else s

/-! ## Commands -/

/-- R162: GO in SETUP. -/
def State.takeGo (s : State) : State := if s.ap.syncPresent then s.enterLive else s.refuse

/-- R10, R12, R163: a calibration command in SETUP; with sync lost it is abandoned at once. -/
def State.takeCalibrate (length : Nat) (s : State) : State :=
  let s1 := { s with
    sc := { s.sc with part := .calibrate }
    inp := { s.inp with measurement := some { length := length, sum := 0, taken := 0 } } }
  if s.ap.syncPresent then s1 else s1.abandonCalibration

/-- R164: STANDBY in LIVE. -/
def State.takeStandby (s : State) : State :=
  (State.fadeSounding { s with sc := { s.sc with part := .standby } }).offerHello false

/-- R46, R173: PIN with its low byte, the key pitch class in bits 3..0 and the scale kind in bits 5..4. -/
def State.takePin (arg : Byte) (s : State) : State :=
  if h : arg.toNat % 16 < 12 then
    s.setContext { pc := ⟨arg.toNat % 16, h⟩, kind := ScaleKind.ofCode (arg.toNat / 16 % 4) } .pinnedLocal false
  else s.refuse

/-- R47: UNPIN; in AUTO it changes nothing. -/
def State.takeUnpin (s : State) : State := if s.cu.mode = .auto then s else s.releasePin

/-- R171: the counters and sticky flags of a voice set to 0. -/
def Voice.cleared (vo : Voice) : Voice :=
  { vo with eng := { vo.eng with starve := 0, cut := 0, rangeClamp := false, clip := false } }

/-- R171: CLEAR. -/
def State.takeClear (s : State) : State :=
  let s1 := s.mapVoices fun _ vo => vo.cleared
  { s1 with
    link := { s.link with rxCrc := 0, echo := 0, queueDrops := 0 }
    bm := { s.bm with buses := Vector.ofFn fun b => { s.bm.buses[b] with clipCount := 0 } }
    inp := { s.inp with calClamped := false, calAborted := false } }

/-- 10.3: the part states that take a command; PIN is checked further by R46 and GO by R162. -/
def Command.takenIn : Command → PartState → Bool
  | .go, .setup => true
  | .calibrateShort, .setup => true
  | .calibrateLong, .setup => true
  | .standby, .live => true
  | .wake, .standby => true
  | .pin, .setup => true
  | .pin, .live => true
  | .pin, .standby => true
  | .unpin, .setup => true
  | .unpin, .live => true
  | .unpin, .standby => true
  | .clear, .setup => true
  | .clear, .live => true
  | .clear, .standby => true
  | _, _ => false

/-- The effect of a command in a part state that takes it. -/
def State.takeCommand (c : Command) (arg : Byte) (s : State) : State :=
  match c with
  | .go => s.takeGo
  | .calibrateShort => s.takeCalibrate 1024
  | .calibrateLong => s.takeCalibrate 8192
  | .standby => s.takeStandby
  | .wake => s.returnToLive
  | .pin => s.takePin arg
  | .unpin => s.takeUnpin
  | .clear => s.takeClear

/-- R159, R166, 10.3: a write of a listed code to COMMAND: ignored in INIT, taken or refused elsewhere. -/
def State.commandWrite (c : Command) (arg : Byte) (s : State) : State :=
  let s1 := s.endTransaction
  if s.sc.part = .init then s1
  else if c.takenIn s.sc.part then s1.takeCommand c arg
  else s1.refuse

/-- R159, R166, R173: a write of any code to COMMAND. -/
def State.codeWrite (code arg : Byte) (s : State) : State :=
  match commandOf code with
  | some c => s.commandWrite c arg
  | none => if s.sc.part = .init then s.endTransaction else s.endTransaction.refuse

/-! ## Writes -/

/-- R45: a KEYCFG write that is taken. -/
def State.takeKeycfg (w : Word16) (s : State) : State :=
  let k := keyConfigOf w
  State.setContext k.key (if k.pinned then .pinnedLocal else .auto) false { s with cfg := { s.cfg with keycfg := k } }

/-- R129, R152, R165: an ENABLE write that is taken. -/
def State.takeEnable (w : Word16) (s : State) : State :=
  let s1 := s.writeEnables w
  { s1 with bm := { s1.bm with mute := w.getLsbD 8 }, sc := { s1.sc with wakeOnVoice := w.getLsbD 9 } }

/-- The words of a voice changed by a write. -/
def State.setVoiceCfg (v : VoiceIx) (f : VoiceConfig → VoiceConfig) (s : State) : State :=
  s.setVoice v { s.voices[v] with cfg := f s.voices[v].cfg }

/-- R159, R174: a write that is taken stores each field clamped, and acts on its owner. -/
def State.storeWord (n : WordName) (w : Word16) (s : State) : State :=
  match n with
  | .attnMask => { s with sc := { s.sc with mask := w.setWidth 7 } }
  | .gate => { s with cfg := { s.cfg with gate := clampInt (-96) 0 w.toInt } }
  | .voiced => { s with cfg := { s.cfg with voicedThreshold := field w 0 8, holdLimit := field w 8 8 } }
  | .snap => { s with cfg := { s.cfg with snap := clampNat 50 90 (field w 0 8) } }
  | .settle => { s with cfg := { s.cfg with settle := clampNat 2 32 (field w 0 8) } }
  | .refresh => { s with cfg := { s.cfg with refresh := clampNat 16 64 (field w 0 8) } }
  | .keycfg => s.takeKeycfg w
  | .collide => { s with cfg := { s.cfg with collideClass := w.getLsbD 0 } }
  | .ruleA i => { s with cfg := { s.cfg with rules := s.cfg.rules.set i (s.cfg.rules[i].withA w) } }
  | .ruleB i => { s with cfg := { s.cfg with rules := s.cfg.rules.set i (s.cfg.rules[i].withB w) } }
  | .lane v => s.setVoiceCfg v (·.withLane w)
  | .voiceCfg v => s.setVoiceCfg v (·.withCfg w)
  | .enable => s.takeEnable w
  | .busGain b =>
    { s with bm := { s.bm with buses := s.bm.buses.set b { s.bm.buses[b] with gain := gainCodeOf w } } }
  | .voiceGain v => s.setVoiceCfg v fun c => { c with gain := gainCodeOf w }
  | _ => s

/-- R159: a write is taken, ignored or refused by the access type of its word and the part state; a COMMAND write is a
command and a RESET write a reset. -/
def State.writeData (addr : BitVec 6) (w : Word16) (s : State) : State :=
  let s1 := s.endTransaction
  if s.sc.part = .init then s1
  else
    match (wordAt addr).access with
    | .readOnly => s1
    | .readClear => s1
    | .unused => s1
    | .setup => if s.sc.part = .setup then s1.storeWord (wordAt addr) w else s1.refuse
    | .live => if s.sc.part = .calibrate then s1.refuse else s1.storeWord (wordAt addr) w
    | .command => s1.codeWrite (w.extractLsb' 8 8) (w.extractLsb' 0 8)
    | .reset => s1.wordReset

/-! ## Reads -/

/-- R158: the port captures a word, which ends any read before it. -/
def State.captureWord (addr : BitVec 6) (c : Option Capture) (s : State) : State :=
  { s with sc := { s.sc with shiftOut := s.readWord addr, capture := c } }

/-- R158, R170: the capture of an ATTN read. -/
def State.captureAttn (s : State) : State := s.captureWord 0x02 (some (.attn s.sc.causes))

/-- R170: the completion of an ATTN read clears the captured causes not raised since. -/
def State.completeAttn (s : State) : State :=
  match s.sc.capture with
  | some (.attn clears) => { s with sc := { s.sc with causes := s.sc.causes &&& ~~~clears, capture := none } }
  | _ => s

/-- R51, R158: the capture of a CONTEXT read. -/
def State.captureContext (s : State) : State := s.captureWord 0x05 (some (.context true))

/-- R51, R158: the completion of a CONTEXT read clears the context-changed flag unless a change was made since. -/
def State.completeContext (s : State) : State :=
  match s.sc.capture with
  | some (.context clears) =>
    { s with cu := { s.cu with changed := s.cu.changed && !clears }, sc := { s.sc with capture := none } }
  | _ => s

/-- R158: the first half of a read of any word, up to its capture. -/
def State.beginRead (addr : BitVec 6) (s : State) : State :=
  match wordAt addr with
  | .attn => s.captureAttn
  | .context => s.captureContext
  | _ => s.captureWord addr none

/-- R158: the completion of a read, which clears what a read-clear word captured. -/
def State.endRead (s : State) : State := s.completeAttn.completeContext

/-- R158: a whole read of any word. -/
def State.readTransaction (addr : BitVec 6) (s : State) : State := (s.beginRead addr).endRead

/-! ## The port's lines -/

/-- R158, R173: the eighth bit taken completes the header; that of a read captures the word it addresses. -/
def State.takeHeader (bits : List Bool) (s : State) : State :=
  if bits.length = 8 ∧ bits.headD false then s.beginRead (BitVec.ofNat 6 (numberOfBits bits / 2)) else s

/-- R157: CSEL rises after the given bits since its fall: a read or a write of 24 bits with the fixed bit 0 takes effect, and
any other transaction is abandoned. -/
def State.endOfBits (bits : List Bool) (s : State) : State :=
  let word := BitVec.ofNat 24 (numberOfBits bits)
  if completeTransaction bits.length word then
    if word.getLsbD 23 then s.endRead else s.writeData (word.extractLsb' 17 6) (word.extractLsb' 0 16)
  else s.endTransaction

/-- R157, R173: what the port does at an event of its lines; a transaction whose CSEL fell before a reset was released is not
taken. -/
def State.portEvent (s : State) (e : PortEvent) : State :=
  match e, s.sc.port with
  | .fall, _ => { s with sc := { s.sc with capture := none, port := some [] } }
  | .clock bit, some bits => State.takeHeader (bits ++ [bit]) { s with sc := { s.sc with port := some (bits ++ [bit]) } }
  | .rise, some bits => State.endOfBits bits { s with sc := { s.sc with port := none } }
  | .clock _, none => s
  | .rise, none => s

/-- R157, R173: a complete transaction of 24 bits. -/
def State.transaction (bits : BitVec 24) (s : State) : State :=
  if bits.getLsbD 23 then s.readTransaction (bits.extractLsb' 17 6)
  else s.writeData (bits.extractLsb' 17 6) (bits.extractLsb' 0 16)

/-- R157: a transaction abandoned as a whole has no effect, unless its count and bits are those of a complete one, which no
well-formed term has. -/
def State.abandonWhole (how : Abandonment) (s : State) : State :=
  match how with
  | .count nbits bits => if completeTransaction nbits bits then s.transaction bits else s.endTransaction
  | .byReset => s.endTransaction

/-- R157, R173: the events of the port's lines, one after another; then a transaction abandoned as a whole, if one is given. -/
def State.abandon (lines : List PortEvent) (ended : Option Abandonment) (s : State) : State :=
  let t := lines.foldl State.portEvent s
  match ended with
  | some how => t.abandonWhole how
  | none => t

end Sys2Proof.Machine
end

