-- ==== Sys2Proof/Machine/PortCommands.lean ====
section
/-! DEFINITION. The meanings of the control port's rows: the commands of 10.3, the writes, the read-clear reads and the
abandoned transaction. -/

namespace Sys2Proof.Machine

/-- CALIBRATE_LONG (R163). -/
def execCalibrateLong (arg : Byte) (s : State) : Host.Outcome State Fault Refusal :=
  whenReleased (·.commandWrite .calibrateLong arg) s

/-- CALIBRATE_SHORT (R163). -/
def execCalibrateShort (arg : Byte) (s : State) : Host.Outcome State Fault Refusal :=
  whenReleased (·.commandWrite .calibrateShort arg) s

/-- GO (R162). -/
def execGo (arg : Byte) (s : State) : Host.Outcome State Fault Refusal := whenReleased (·.commandWrite .go arg) s

/-- STANDBY (R164). -/
def execStandby (arg : Byte) (s : State) : Host.Outcome State Fault Refusal := whenReleased (·.commandWrite .standby arg) s

/-- WAKE (R165). -/
def execWake (arg : Byte) (s : State) : Host.Outcome State Fault Refusal := whenReleased (·.commandWrite .wake arg) s

/-- PIN (R46). -/
def execPin (arg : Byte) (s : State) : Host.Outcome State Fault Refusal := whenReleased (·.commandWrite .pin arg) s

/-- UNPIN (R47). -/
def execUnpin (arg : Byte) (s : State) : Host.Outcome State Fault Refusal := whenReleased (·.commandWrite .unpin arg) s

/-- CLEAR (R171). -/
def execClear (arg : Byte) (s : State) : Host.Outcome State Fault Refusal := whenReleased (·.commandWrite .clear arg) s

/-- UNKNOWN_CODE (R166, R173): a COMMAND write whose code is not listed. -/
def execUnknownCode (code arg : Byte) (s : State) : Host.Outcome State Fault Refusal :=
  whenReleased (·.codeWrite code arg) s

/-- KEYCFG (R45): a write of the KEYCFG word. -/
def execKeycfg (data : Word16) (s : State) : Host.Outcome State Fault Refusal := whenReleased (·.writeData 0x11 data) s

/-- ENABLE (R129): a write of the ENABLE word. -/
def execEnable (data : Word16) (s : State) : Host.Outcome State Fault Refusal := whenReleased (·.writeData 0x2B data) s

/-- MUTE (R152): a write of the ENABLE word that changes its MUTE bit alone (log 7). -/
def execMute (mute : Bool) (s : State) : Host.Outcome State Fault Refusal :=
  whenReleased (fun t => t.writeData 0x2B ((t.enableWord &&& 0xFEFF) ||| (if mute then 0x0100 else 0))) s

/-- ATTN_MASK (R169): a write of the mask. -/
def execAttnMask (data : Word16) (s : State) : Host.Outcome State Fault Refusal := whenReleased (·.writeData 0x03 data) s

/-- ATTN (R170): a read of ATTN, its capture, its completion, or both. -/
def execAttn (phase : ReadPhase) (s : State) : Host.Outcome State Fault Refusal :=
  whenReleased
    (fun t =>
      match phase with
      | .whole => t.captureAttn.completeAttn
      | .capture => t.captureAttn
      | .complete => t.completeAttn) s

/-- CONTEXT (R51): a read of CONTEXT, its capture, its completion, or both. -/
def execContext (phase : ReadPhase) (s : State) : Host.Outcome State Fault Refusal :=
  whenReleased
    (fun t =>
      match phase with
      | .whole => t.captureContext.completeContext
      | .capture => t.captureContext
      | .complete => t.completeContext) s

/-- WRITE_WORD (R159): a completed write of any word. -/
def execWriteWord (addr : BitVec 6) (data : Word16) (s : State) : Host.Outcome State Fault Refusal :=
  whenReleased (·.writeData addr data) s

/-- TRANSACTION_ABANDONED (R157): a transaction ends without effect, on the port's lines or as a whole. -/
def execTransactionAbandoned (lines : List PortEvent) (ended : Option Abandonment) (s : State) :
    Host.Outcome State Fault Refusal := whenReleased (·.abandon lines ended) s

end Sys2Proof.Machine
end

