-- ==== Sys2Proof/Machine/ResetEvents.lean ====
section
/-! DEFINITION. The meanings of the reset rows: POWER_ON_RESET, PIN_RESET, RESET, INIT_COMPLETION, PIN_RESET_ASSERTED. -/

namespace Sys2Proof.Machine

/-- POWER_ON_RESET (R167): a power-on reset, held from the rise of the supplies, is released when they are valid. -/
def execPowerOnReset (phase : PowerOnPhase) (s : State) : Host.Outcome State Fault Refusal := .next (s.powerOn phase)

/-- PIN_RESET (R167): release of RSTN. -/
def execPinReset (straps : Straps) (s : State) : Host.Outcome State Fault Refusal := .next (s.pinRelease straps)

/-- RESET (R167): a completed write of any value to the RESET word; in INIT it is ignored (R159). -/
def execReset (data : Word16) (s : State) : Host.Outcome State Fault Refusal := whenReleased (·.writeData 0x3F data) s

/-- INIT_COMPLETION (R160): the end of the storage clearing. -/
def execInitCompletion (s : State) : Host.Outcome State Fault Refusal := whenReleased (·.initDone) s

/-- PIN_RESET_ASSERTED (R167): RSTN goes low. -/
def execPinResetAsserted (s : State) : Host.Outcome State Fault Refusal := .next s.assertPinReset

end Sys2Proof.Machine
end

