-- ==== Sys2Proof/Machine/VoiceEvents.lean ====
section
/-! DEFINITION. The meanings of the rows of one voice: EPOCH, GRAIN_END, ATTACK_COMPLETE, FADE_END, HOLD_LIMIT,
RETURN_TO_PRIMARY, FIRMING, CLAIM_REFRESH. Each takes place when its condition stands in the state and does nothing
otherwise; the per-sample work and the synced hop take the same events at once as they bring the condition about (log 3). -/

namespace Sys2Proof.Machine

/-- EPOCH (R138): the epoch counter of a voice whose epochs run has reached 0 or less. -/
def execEpoch (v : VoiceIx) (s : State) : Host.Outcome State Fault Refusal :=
  whenReleased (fun t => t.putVoice v (t.voices[v].epochDue t.renderEnv)) s

/-- GRAIN_END (R137): the grains whose remaining length has reached 0 are removed. -/
def execGrainEnd (v : VoiceIx) (s : State) : Host.Outcome State Fault Refusal :=
  whenReleased (fun t => t.setVoice v t.voices[v].endGrains) s

/-- ATTACK_COMPLETE (R132): the envelope has reached 32767 in ONSET. -/
def execAttackComplete (v : VoiceIx) (s : State) : Host.Outcome State Fault Refusal :=
  whenReleased (fun t => t.setVoice v t.voices[v].attackComplete) s

/-- FADE_END (R134): a FADE voice with envelope 0 and no grain in flight. -/
def execFadeEnd (v : VoiceIx) (s : State) : Host.Outcome State Fault Refusal :=
  whenReleased (fun t => t.setVoice v t.voices[v].fadeEnd) s

/-- HOLD_LIMIT (R133): the hold timer has reached 256 × HOLDLIMIT. -/
def execHoldLimit (v : VoiceIx) (s : State) : Host.Outcome State Fault Refusal :=
  whenReleased (fun t => t.putVoice v (t.voices[v].holdLimitDue t.cfg.holdLimit)) s

/-- RETURN_TO_PRIMARY (R88): the free count of a voice on its alternate has reached SETTLE. -/
def execReturnToPrimary (v : VoiceIx) (s : State) : Host.Outcome State Fault Refusal :=
  whenReleased (fun t => if t.voices[v].returnDue t.cfg.settle then t.setVoice v t.voices[v].takePrimary else t) s

/-- FIRMING (R75): the settle count of a soft claim has reached SETTLE. -/
def execFirming (v : VoiceIx) (s : State) : Host.Outcome State Fault Refusal :=
  whenReleased
    (fun t => (t.setVoice v (t.voices[v].firmDue t.cfg.settle v).1).offerSome (t.voices[v].firmDue t.cfg.settle v).2) s

/-- CLAIM_REFRESH (R77): the refresh count of a claim has reached REFRESH. -/
def execClaimRefresh (v : VoiceIx) (s : State) : Host.Outcome State Fault Refusal :=
  whenReleased
    (fun t =>
      (t.setVoice v (t.voices[v].refreshDue t.cfg.refresh v).1).offerSome (t.voices[v].refreshDue t.cfg.refresh v).2) s

end Sys2Proof.Machine
end

