-- ==== Sys2Proof/Machine/Dispatch.lean ====
section
/-! DEFINITION. One arm per command: the effect of a command on everything but the queue. -/

namespace Sys2Proof.Machine

/-- The effect of a command on the part; the queue of waiting commands is left as it is. -/
def exec (i : Instr) (s : State) : Host.Outcome State Fault Refusal :=
  match i with
  | .powerOnReset phase => Sys2Proof.Machine.execPowerOnReset phase s
  | .pinReset straps => Sys2Proof.Machine.execPinReset straps s
  | .reset data => Sys2Proof.Machine.execReset data s
  | .initCompletion => Sys2Proof.Machine.execInitCompletion s
  | .frameSync => Sys2Proof.Machine.execFrameSync s
  | .sampleReceived slot hopFirst => Sys2Proof.Machine.execSampleReceived slot hopFirst s
  | .epoch v => Sys2Proof.Machine.execEpoch v s
  | .grainEnd v => Sys2Proof.Machine.execGrainEnd v s
  | .attackComplete v => Sys2Proof.Machine.execAttackComplete v s
  | .fadeEnd v => Sys2Proof.Machine.execFadeEnd v s
  | .holdLimit v => Sys2Proof.Machine.execHoldLimit v s
  | .syncLossEvent leadFirst => Sys2Proof.Machine.execSyncLossEvent leadFirst s
  | .freeHop order => Sys2Proof.Machine.execFreeHop order s
  | .syncedHop order => Sys2Proof.Machine.execSyncedHop order s
  | .holdLength => Sys2Proof.Machine.execHoldLength s
  | .decisionHop => Sys2Proof.Machine.execDecisionHop s
  | .periodicLead => Sys2Proof.Machine.execPeriodicLead s
  | .periodicKey => Sys2Proof.Machine.execPeriodicKey s
  | .quietHello => Sys2Proof.Machine.execQuietHello s
  | .returnToPrimary v => Sys2Proof.Machine.execReturnToPrimary v s
  | .firming v => Sys2Proof.Machine.execFirming v s
  | .claimRefresh v => Sys2Proof.Machine.execClaimRefresh v s
  | .claimAgeLimit p v => Sys2Proof.Machine.execClaimAgeLimit p v s
  | .recordLimit p => Sys2Proof.Machine.execRecordLimit p s
  | .calibrateLong arg => Sys2Proof.Machine.execCalibrateLong arg s
  | .calibrateShort arg => Sys2Proof.Machine.execCalibrateShort arg s
  | .measurementCompletes => Sys2Proof.Machine.execMeasurementCompletes s
  | .go arg => Sys2Proof.Machine.execGo arg s
  | .standby arg => Sys2Proof.Machine.execStandby arg s
  | .wake arg => Sys2Proof.Machine.execWake arg s
  | .pin arg => Sys2Proof.Machine.execPin arg s
  | .unpin arg => Sys2Proof.Machine.execUnpin arg s
  | .clear arg => Sys2Proof.Machine.execClear arg s
  | .unknownCode code arg => Sys2Proof.Machine.execUnknownCode code arg s
  | .keycfg data => Sys2Proof.Machine.execKeycfg data s
  | .enable data => Sys2Proof.Machine.execEnable data s
  | .mute m => Sys2Proof.Machine.execMute m s
  | .attnMask data => Sys2Proof.Machine.execAttnMask data s
  | .attn phase => Sys2Proof.Machine.execAttn phase s
  | .context phase => Sys2Proof.Machine.execContext phase s
  | .writeWord addr data => Sys2Proof.Machine.execWriteWord addr data s
  | .transactionAbandoned lines ended => Sys2Proof.Machine.execTransactionAbandoned lines ended s
  | .startFrame => Sys2Proof.Machine.execStartFrame s
  | .lostArbitration winner => Sys2Proof.Machine.execLostArbitration winner s
  | .echoMismatch => Sys2Proof.Machine.execEchoMismatch s
  | .frameSent => Sys2Proof.Machine.execFrameSent s
  | .receiveFrame rx => Sys2Proof.Machine.execReceiveFrame rx s
  | .stuck => Sys2Proof.Machine.execStuck s
  | .returnToActive => Sys2Proof.Machine.execReturnToActive s
  | .pinResetAsserted => Sys2Proof.Machine.execPinResetAsserted s

end Sys2Proof.Machine
end

