-- ==== Sys2Proof/Safety.lean ====
section
/-! DEFINITION. What counts as a sound state of the part: the invariants the manual's prose gives the whole machine, each
decidable; and what a hop leaves of the Context Unit, in the terms the statements use. -/

namespace Sys2Proof.Machine

/-! ## History Memory -/

/-- R14, R2: the ring's list is canonical, the fill count is at most 4096, and unless the memory is empty the next sample
number is W + 1. -/
abbrev State.historyOk (s : State) : Prop :=
  s.hm.wf ∧ (s.hm.fill = 0 ∨ s.ap.sampleCounter = s.hm.newest + 1)

/-! ## Transmit queue -/

/-- R104, R101, R103: at most 8 entries, no two of one class; nothing queued where no offer is taken; and a frame is being
sent only in ACTIVE. -/
abbrev State.queueOk (s : State) : Prop :=
  s.link.queue.length ≤ 8
    ∧ s.link.queue.Pairwise (fun a b => a.sameClass b = false)
    ∧ (s.link.state.takesOffers = false → s.link.queue = [])
    ∧ (s.link.slot ≠ none → s.link.state = .active)

/-! ## Claims -/

/-- R72, R76: a voice holds a claim exactly in ONSET, SOUND and HOLD; the decided note is the claim note, or none; a voice
with no claim has on-alternate flag, free count and doubled mark 0; and the free count stays below SETTLE (R88). -/
abbrev Voice.claimOk (settle : Nat) (vo : Voice) : Prop :=
  vo.plan.claim.isSome = vo.eng.state.sounding
    ∧ vo.plan.claim.map (·.note) = vo.plan.decided
    ∧ (vo.plan.claim = none → vo.plan.onAlternate = false ∧ vo.plan.freeCount = 0 ∧ vo.plan.doubled = false)
    ∧ vo.plan.freeCount < settle

/-- R72, R135, R79, R163: every voice's claim is sound; outside LIVE no voice is in ONSET, SOUND or HOLD; SETTLE is 2 to 32;
and a measurement is in progress exactly in CALIBRATE. -/
abbrev State.claimsOk (s : State) : Prop :=
  (∀ v : VoiceIx, s.voices[v].claimOk s.cfg.settle)
    ∧ (s.sc.part ≠ .live → ∀ v : VoiceIx, s.voices[v].eng.state.sounding = false)
    ∧ (2 ≤ s.cfg.settle ∧ s.cfg.settle ≤ 32)
    ∧ s.inp.measurement.isSome = decide (s.sc.part = .calibrate)

/-- Two voices hold claims on notes that collide (R83). -/
def Voice.clashes (byClass : Bool) (a b : Voice) : Bool :=
  match a.plan.claim, b.plan.claim with
  | some c, some d => collides byClass c.note d.note
  | _, _ => false

/-- R90: no two own claims collide unless the higher-indexed voice is marked doubled. -/
abbrev State.claimsApart (s : State) : Prop :=
  ∀ v w : VoiceIx, v < w → s.voices[v].clashes s.cfg.collideClass s.voices[w] = true → s.voices[w].plan.doubled = true

/-! ## Peer Table -/

/-- R114: the table holds no record under the own station number. -/
abbrev State.peersOk (s : State) : Prop := s.peers[s.sc.station] = none

/-- R123: the ageing of this hop takes the silence of a station's record past the record limit. -/
def State.peerExpires (s : State) (p : Station) : Bool :=
  match s.peers[p] with
  | some r => decide (min (4 * s.cfg.refresh) 255 < r.silence + 1)
  | none => false

/-- R50: the ageing of this hop removes the record of the pinning station. -/
def State.pinExpires (s : State) : Bool :=
  match s.cu.mode with
  | .pinnedPeer p => s.peerExpires p
  | _ => false

/-! ## The Context Unit at a hop -/

/-- R36, R37: the held note and the hold count that a hop with record `r` leaves: the nearest semitone of a voiced lead past
SNAP, halves up, with count 0; unvoiced, a hold of at most 8 hops. -/
def ContextUnit.heldAfter (c : ContextUnit) (snap : Nat) (r : PitchRecord) : Option Nat × Nat :=
  match r.voiced, c.held with
  | true, none => (some ((2 * r.cents + 100) / 200).toNat, 0)
  | true, some n =>
    (some (if (snap : Int) < |r.cents - 100 * n| then ((2 * r.cents + 100) / 200).toNat else n), 0)
  | false, none => (none, c.holdCount)
  | false, some n => if c.holdCount + 1 ≤ 8 then (some n, c.holdCount + 1) else (none, 0)

/-- R39, R40: a weight of the tally after a hop: decayed by a 512th, then fed by each lead of its pitch class up to 65535. -/
def weightAfter (w : Nat) (k : Fin 12) (leads : List (Nat × Nat)) : Nat :=
  leads.foldl (fun x l => if l.1 % 12 = k.val then min 65535 (x + l.2) else x) (w - w / 512)

/-- R35 to R43, R50, R51, R89, R122: what a hop with record `r`, the Peer Table aged at place `age`, leaves of the Context
Unit and the Peer Table in `t`, from the state `s` before it; the key decision is `ContextUnit.decide`. -/
def State.contextHop (s t : State) (r : PitchRecord) (age : Place) : Prop :=
  (t.cu.held, t.cu.holdCount) = s.cu.heldAfter s.cfg.snap r
    ∧ (∀ k : Fin 12, t.cu.tally[k] = weightAfter s.cu.tally[k] k
        ((if r.voiced then (t.cu.held.map fun n => (n, r.confidence)).toList else [])
          ++ (List.finRange 8).filterMap (if age = .beforeContext then s.ageing else s).soundingLead))
    ∧ t.cu.decisionCount = (if s.cu.decisionCount + 1 < 16 then s.cu.decisionCount + 1 else 0)
    ∧ (let released := s.pinExpires && decide (age = .beforeContext)
      let decides := decide (16 ≤ s.cu.decisionCount + 1) && (decide (s.cu.mode = .auto) || released)
      t.cu.key = (if decides then
          ContextUnit.decide { s.cu with tally := t.cu.tally, openDecision := s.cu.openDecision || released }
        else s.cu.key)
      ∧ t.cu.openDecision = (if s.pinExpires && !released then true
        else !decides && (s.cu.openDecision || released)))
    ∧ t.cu.mode = (if s.pinExpires then .auto else s.cu.mode)
    ∧ t.cu.changed = (s.cu.changed || s.pinExpires || decide (t.cu.key ≠ s.cu.key))
    ∧ t.peers = s.ageing.peers

/-! ## Ranges -/

/-- R142, R144: a voice has at most 4 grains in flight and an envelope of at most 32767. -/
abbrev Engine.rangesOk (e : Engine) : Prop := e.grains.length ≤ 4 ∧ e.envelope ≤ 32767

/-- R29, R142, R144, R42, R41: the ranges of the mark list, the grain lists, the envelopes, the key tally and the decision
count. -/
abbrev State.rangesOk (s : State) : Prop :=
  s.pt.marks.length ≤ 24
    ∧ (∀ v : VoiceIx, s.voices[v].eng.rangesOk)
    ∧ (∀ k : Fin 12, s.cu.tally[k] ≤ 65535)
    ∧ s.cu.decisionCount ≤ 15

/-- R75, R77, R140, R142: the counts of a voice: the settle count of a claim, the refresh count, the starve and the cut counter. -/
abbrev Voice.countsOk (vo : Voice) : Prop :=
  (∀ c ∈ vo.plan.claim, c.settle ≤ 32 ∧ (c.firm = false → c.settle ≤ 31))
    ∧ vo.plan.refreshCount ≤ 63 ∧ vo.eng.starve ≤ 255 ∧ vo.eng.cut ≤ 255

/-- R116, R117, R122, R123: the ages of a peer record. -/
abbrev PeerRecord.agesOk (r : PeerRecord) : Prop :=
  r.silence ≤ 255 ∧ (∀ l ∈ r.lead, l.age ≤ 255 ∧ l.confidence ≤ 255)
    ∧ ∀ v : VoiceIx, ∀ c ∈ r.claims[v], c.age ≤ 255

/-- R109 to R111, R113: the counts of the link controller. -/
abbrev LinkController.countsOk (l : LinkController) : Prop :=
  l.leadCount ≤ 3 ∧ l.keyCount ≤ 127 ∧ l.quietCount ≤ 63 ∧ l.rxCrc ≤ 255 ∧ l.echo ≤ 255 ∧ l.queueDrops ≤ 255

/-- R6, R8, R9, R23, R37, R75, R77, R109 to R113, R122, R123, R140, R142, R151: every count within its range, and with them the
offset, the levels and the confidence. -/
abbrev State.countsOk (s : State) : Prop :=
  s.ap.hopCount ≤ 256 ∧ s.cu.holdCount ≤ 8 ∧ s.link.countsOk
    ∧ (∀ v : VoiceIx, s.voices[v].countsOk)
    ∧ (∀ p : Station, ∀ r ∈ s.peers[p], r.agesOk)
    ∧ (∀ b : BusIx, s.bm.buses[b].clipCount ≤ 255)
    ∧ (-524287 ≤ s.inp.offset ∧ s.inp.offset ≤ 524287) ∧ (-144 ≤ s.inp.level ∧ s.inp.level ≤ 0)
    ∧ (-144 ≤ s.pt.record.level ∧ s.pt.record.level ≤ 0) ∧ s.pt.record.confidence ≤ 255

/-- R52: the fields of a rule are in range. -/
abbrev IntervalRule.inRange (r : IntervalRule) : Prop :=
  -14 ≤ r.primary ∧ r.primary ≤ 14 ∧ -14 ≤ r.alternate ∧ r.alternate ≤ 14 ∧ r.follow ≤ 100 ∧ r.glide ≤ 1200

/-- R53, R54, R149: the words of a voice are in range. -/
abbrev VoiceConfig.inRange (c : VoiceConfig) : Prop :=
  28 ≤ c.laneLow ∧ c.laneLow ≤ 96 ∧ 12 ≤ c.laneSpan ∧ c.laneSpan ≤ 36 ∧ 1 ≤ c.attack ∧ c.attack ≤ 16
    ∧ 1 ≤ c.release ∧ c.release ≤ 64 ∧ c.gain ≤ 152

/-- R36, R52 to R54, R79, R149, R159: every setting lies within its range. -/
abbrev State.settingsOk (s : State) : Prop :=
  (-96 ≤ s.cfg.gate ∧ s.cfg.gate ≤ 0) ∧ (50 ≤ s.cfg.snap ∧ s.cfg.snap ≤ 90)
    ∧ (2 ≤ s.cfg.settle ∧ s.cfg.settle ≤ 32) ∧ (16 ≤ s.cfg.refresh ∧ s.cfg.refresh ≤ 64)
    ∧ s.cfg.voicedThreshold ≤ 255 ∧ s.cfg.holdLimit ≤ 255
    ∧ (∀ i : Fin 4, s.cfg.rules[i].inRange)
    ∧ (∀ v : VoiceIx, s.voices[v].cfg.inRange)
    ∧ (∀ b : BusIx, s.bm.buses[b].gain ≤ 152)

end Sys2Proof.Machine
end

