-- ==== Sys2Proof/Certificates/Slice0/Obligations.lean ====
section
/-! DEFINITION. The statements for the provers, one `def Obligations.<Name> : Prop` each; OBLIGATIONS.json lists them. A
command's statement gives, for every state and operands that meet its hypotheses, the whole next state or the fields it
leaves; "released" is that no power-on or pin reset is held (R167). Where a control transaction leaves no capture, it has
ended the read in progress before it (log 22). -/

section

open Sys2Proof Sys2Proof.Machine

/-! ## The queue of commands and the resets -/

/-- A step takes the command at the front of the queue and runs it on the state with the queue's rest; with no command
waiting the part idles. The queue is the model's own (log 2), no rule of the manual. -/
def Obligations.StepRunsFrontCommand : Prop :=
  (∀ (c : Instr) (rest : List Instr) (s : State),
    step { s with pending := c :: rest } = exec c { s with pending := rest }) ∧
  ∀ s : State, s.pending = [] → step s = .next s

/-- 11.4 and the chapters' reset values: what a read of each word captures right after a reset of any kind, with any straps, and
the state of every block that no word shows: sync lost with the monitor's timer stopped and the free timer started, an empty
history, the tracker's record and pair, no held note and an empty tally, no claim, an empty queue and slot, no peer, every
voice OFF and every register of chapters 8 and 9 at 0. -/
def Obligations.ResetValuesOfEveryBlock : Prop :=
  (∀ (cause : StartCause) (straps : Straps) (q : List Instr),
    (State.atReset cause straps q).readWord 0x00 = 0x4701
    ∧ (State.atReset cause straps q).readWord 0x01
        = wordOf (8 * cause.code + 32 * straps.station.val + (if straps.solo then 0x100 else 0) + 0x200
          + (if straps.solo then 0 else 0x0800))
    ∧ (State.atReset cause straps q).readWord 0x03 = 0x0040
    ∧ (State.atReset cause straps q).readWord 0x06 = 0x0F6D
    ∧ (State.atReset cause straps q).readWord 0x07 = 0x7F00
    ∧ (State.atReset cause straps q).readWord 0x0C = 0xFFCE
    ∧ (State.atReset cause straps q).readWord 0x0D = 0x30A0
    ∧ (State.atReset cause straps q).readWord 0x0E = 0x003C
    ∧ (State.atReset cause straps q).readWord 0x0F = 0x0008
    ∧ (State.atReset cause straps q).readWord 0x10 = 0x0020
    ∧ (State.atReset cause straps q).readWord 0x13 = 0x0082
    ∧ (State.atReset cause straps q).readWord 0x14 = 0x03BE
    ∧ (State.atReset cause straps q).readWord 0x15 = 0x0044
    ∧ (State.atReset cause straps q).readWord 0x16 = 0x037D
    ∧ (∀ i : Fin 4, (State.atReset cause straps q).readWord (BitVec.ofNat 6 (0x17 + i.val)) = 0x0064)
    ∧ (∀ v : Fin 8, (State.atReset cause straps q).readWord (BitVec.ofNat 6 (0x1B + v.val)) = 0x1830)
    ∧ (∀ v : Fin 8, (State.atReset cause straps q).readWord (BitVec.ofNat 6 (0x23 + v.val))
        = BitVec.ofNat 16 (0x3C80 + 5 * (v.val % 4)))
    ∧ (State.atReset cause straps q).readWord 0x2B = 0x0100
    ∧ (∀ b : Fin 4, (State.atReset cause straps q).readWord (BitVec.ofNat 6 (0x2C + b.val)) = 0x0080)
    ∧ (∀ v : Fin 8, (State.atReset cause straps q).readWord (BitVec.ofNat 6 (0x30 + v.val)) = 0x0080)
    ∧ ∀ a : BitVec 6,
        a ∈ ([0x02, 0x04, 0x05, 0x08, 0x09, 0x0A, 0x0B, 0x11, 0x12, 0x38, 0x39, 0x3A, 0x3B, 0x3C, 0x3D, 0x3E, 0x3F]
          : List (BitVec 6)) → (State.atReset cause straps q).readWord a = 0) ∧
  (∀ (cause : StartCause) (straps : Straps) (q : List Instr) (t : State), t = State.atReset cause straps q →
    (t.ap.syncPresent = false ∧ t.ap.monitorTimer = false ∧ t.ap.sampleCounter = 0 ∧ t.ap.hopCount = 0
      ∧ t.ap.freeTimer = true ∧ t.ap.slotOpen = false ∧ t.ap.sending = none)
    ∧ (t.inp.offset = 0 ∧ t.inp.level = -144 ∧ t.inp.measurement = none)
    ∧ (t.hm.newest = 0 ∧ t.hm.fill = 0 ∧ ∀ n : SampleNumber, t.hm.read n = 0)
    ∧ (t.pt.record.period = 9600 ∧ t.pt.lastVoiced = { period := 9600, cents := 3949 } ∧ t.pt.marks = []
      ∧ t.pt.prevVoiced = false)
    ∧ (t.cu.held = none ∧ t.cu.holdCount = 0 ∧ (∀ k : Fin 12, t.cu.tally[k] = 0) ∧ t.cu.decisionCount = 0
      ∧ t.cu.key = { pc := 0, kind := .major } ∧ t.cu.mode = .auto ∧ t.cu.openDecision = false)
    ∧ (∀ v : VoiceIx, t.voices[v].plan =
        { primary := none, alternate := none, decided := none, cents := 3949, shift := 0, period := 9600, claim := none
          onAlternate := false, freeCount := 0, doubled := false, refreshCount := 0 })
    ∧ (∀ v : VoiceIx, t.voices[v].eng =
        { state := .off, disablePending := false, envelope := 0, epoch := 0, reload := 9600, holdTimer := 0, grains := []
          starve := 0, cut := 0, rangeClamp := false, clip := false })
    ∧ (t.link.state = (if straps.solo then .solo else .listen) ∧ t.link.queue = [] ∧ t.link.slot = none
      ∧ t.link.rxBytes = [] ∧ t.link.leadCount = 0 ∧ t.link.keyCount = 0 ∧ t.link.quietCount = 0
      ∧ t.link.lastVoiced = false ∧ t.link.stuckMonitor = .off)
    ∧ (∀ p : Station, t.peers[p] = none)
    ∧ (t.bm.mute = true ∧ ∀ b : BusIx, t.bm.buses[b].clipState = false ∧ t.bm.tx[b] = 0)
    ∧ (t.sc.liveEntry = false ∧ t.sc.wakeOnVoice = false ∧ t.sc.capture = none ∧ t.sc.port = none
      ∧ t.attentionLow = false))

/-- R167, R160: the release of a power-on or pin reset puts every block at its reset values with the straps sampled latched and
the part in INIT; the start cause is POWER when a power-on reset has occurred since the last release and PIN otherwise. Of
two resets that overlap the later end releases the part: with RSTN still low at the end of a power-on reset, and with a
power-on reset still held at the rise of RSTN, the part is held on. INIT completion enters SETUP, raises DONE and has the
receiver wait for the pair to be idle, which it is when the last 12 bits followed in INIT were recessive (log 27). -/
def Obligations.ResetReleaseEntersInit : Prop :=
  ((∀ (straps : Straps) (s : State), s.sc.pinHeld = false →
    exec (.powerOnReset (.valid straps)) s = .next (State.atReset .power straps s.pending)
    ∧ (State.atReset .power straps s.pending).sc.part = .init
    ∧ (State.atReset .power straps s.pending).sc.cause = .power
    ∧ (State.atReset .power straps s.pending).sc.station = straps.station
    ∧ (State.atReset .power straps s.pending).sc.solo = straps.solo) ∧
  ∀ (straps : Straps) (s : State), s.sc.pinHeld = true →
    ∃ t, exec (.powerOnReset (.valid straps)) s = .next t ∧ t.sc.resetHeld = true ∧ t.sc.powerOnSeen = true
      ∧ t.sc.pinHeld = true ∧ t.sc.powerOnHeld = false
      ∧ t.sc.station = s.sc.station ∧ t.sc.solo = s.sc.solo ∧ t.sc.cause = s.sc.cause) ∧
  ((∀ (straps : Straps) (s : State), s.sc.powerOnHeld = false →
    exec (.pinReset straps) s = .next (State.atReset (if s.sc.powerOnSeen then .power else .pin) straps s.pending)) ∧
  ∀ (straps : Straps) (s : State), s.sc.powerOnHeld = true →
    ∃ t, exec (.pinReset straps) s = .next t ∧ t.sc.resetHeld = true ∧ t.sc.powerOnSeen = true
      ∧ t.sc.pinHeld = false ∧ t.sc.powerOnHeld = true
      ∧ t.sc.station = s.sc.station ∧ t.sc.solo = s.sc.solo ∧ t.sc.cause = s.sc.cause) ∧
  (∀ s : State, s.sc.resetHeld = false → s.sc.part = .init →
    exec .initCompletion s = .next
      { s with
        sc := { s.sc with
          part := .setup, causes := s.sc.causes ||| 0x20, capture := s.sc.capture.map (Capture.keepRaised .done) }
        link := { s.link with receiver := (match s.link.receiver with
          | .waitIdle n => if n < 12 then .waitIdle n else .ready
          | _ => .waitIdle) } })

/-- R167, R159, R155: a RESET write of any value puts every block at its reset values, keeps the latched straps and the
frame being sent as it was latched, and records WORD; in INIT it is ignored. -/
def Obligations.WordResetKeepsStraps : Prop :=
  (∀ (data : Word16) (s : State), s.sc.resetHeld = false → s.sc.part ≠ .init →
    exec (.reset data) s = .next
      { State.atReset .word { station := s.sc.station, solo := s.sc.solo } s.pending with
        ap := { AudioPort.reset with sending := s.ap.sending } }) ∧
  ∀ (data : Word16) (s : State), s.sc.resetHeld = false → s.sc.part = .init →
    exec (.reset data) s = .next { s with sc := { s.sc with capture := none } }

/-- R167, R157: RSTN going low releases the attention line, stops the transmit side and puts every block at its reset
values, with the straps and the start cause still those of the last release, and the rise of the supplies does the
same and holds a power-on reset; while either is held, no command or event but the resets themselves has an effect. What a held
reset takes is read from R157 and R167 (log 13). -/
def Obligations.HeldResetTakesNothing : Prop :=
  (∀ s : State, ∃ t, exec .pinResetAsserted s = .next t ∧ t.sc.resetHeld = true ∧ t.sc.powerOnSeen = s.sc.powerOnSeen
    ∧ t.sc.station = s.sc.station ∧ t.sc.solo = s.sc.solo ∧ t.sc.cause = s.sc.cause ∧ t.attentionLow = false
    ∧ t.sc.port = none
    ∧ t.ap = { AudioPort.reset with freeTimer := false } ∧ t.hm = HistoryMemory.reset ∧ t.inp = InputStage.reset
    ∧ t.pt = PitchTracker.reset ∧ t.cu = ContextUnit.reset ∧ t.cfg = Setup.reset
    ∧ (∀ v : VoiceIx, t.voices[v] = Voice.reset v) ∧ t.link = LinkController.reset s.sc.solo
    ∧ (∀ p : Station, t.peers[p] = none) ∧ t.bm = BusMixer.reset) ∧
  (∀ (c : Instr) (s : State), s.sc.resetHeld = true → (∀ straps, c ≠ .powerOnReset straps) →
    (∀ straps, c ≠ .pinReset straps) → c ≠ .pinResetAsserted → exec c s = .next s) ∧
  ∀ s t : State, exec .pinResetAsserted s = .next t →
    t.sc.pinHeld = true ∧ t.sc.powerOnHeld = s.sc.powerOnHeld
    ∧ exec (.powerOnReset .rise) s = .next
      { t with sc := { t.sc with pinHeld := s.sc.pinHeld, powerOnHeld := true, powerOnSeen := true } }

/-! ## Audio port and hops -/

/-- R1, R3, R153: in SYNC PRESENT a frame sync opens slot 0 (abandoning an incomplete one), restarts the monitor's
timer and sends the transmit register. In SYNC LOST it is also the sync return: the hop count is 0, the free timer
stops, the History Memory and the mark list are emptied, and SYNC is raised. A hop
left due in SYNC PRESENT is taken before the frame sync, in the order log 5 names. -/
def Obligations.FrameSyncBeginsFrame : Prop :=
  (∀ s : State, s.sc.resetHeld = false → s.ap.syncPresent = true → 256 ≤ s.ap.hopCount → s.sc.part ≠ .init →
    ∃ t, exec (.syncedHop { ageing := .beforeContext, onset := .beforeContext }) s = .next t
      ∧ t.ap = { s.ap with hopCount := 0 } ∧ exec .frameSync s = exec .frameSync t) ∧
  (∀ s : State, s.sc.resetHeld = false → s.ap.syncPresent = true → s.ap.hopCount < 256 ∨ s.sc.part = .init →
    exec .frameSync s = .next
      { s with ap := { s.ap with monitorTimer := true, slotOpen := true, sending := some s.bm.tx } }) ∧
  ∀ s : State, s.sc.resetHeld = false → s.ap.syncPresent = false →
    exec .frameSync s = .next
      { s.raise .sync with
        ap := { s.ap with
          syncPresent := true, hopCount := 0, freeTimer := false, monitorTimer := true, slotOpen := true
          sending := some s.bm.tx }
        hm := { s.hm with ring := [], fill := 0 }
        pt := { s.pt with marks := [] } }

/-- R1, R2, R8, R10, R14, R6, R137: a received sample takes the counter's value as its number, is conditioned and saturated to
24 bits, written under that number, is measured before conditioning, and advances the hop count; every engine does its
per-sample work on the memory so written, and the voice samples are mixed as R150 to R153 have it, which gives the buses, the
transmit register, the clip flags and CLIP. The sample that brings a measurement to its length completes it: offset, SETUP and
DONE. Every voice is left as its engine's work leaves it, and a voice taken out of HOLD by a starved epoch or the hold limit
offers its DROP (R140, R133, R76); that DROPs of several voices go in index order is the model's (log 10). The tracker, the
Context Unit, the words and the Peer Table stand. With a hop taken first the engines work after it, on the marks, the history
and the voices it leaves, and a voice that enters HOLD at that hop does not count the sample (R133); it changes nothing of this
while none is due; the 256th sample of a hop also leaves the hop's level and record and a hop count of 0. A hop left due is
taken before the sample, and in INIT none falls. `hopFirst`, with nothing between that hop and the engines' work, and a hop
count of 256 are the model's (logs 4 and 5). -/
def Obligations.SampleReceivedIsWritten : Prop :=
  (∀ x : Int, (saturate24 x).toInt = max (-8388608) (min 8388607 x)) ∧
  (∀ (slot : BitVec 32) (h : Option HopOrder) (s : State), s.sc.resetHeld = false → s.ap.syncPresent = true →
    256 ≤ s.ap.hopCount → s.sc.part ≠ .init →
    ∃ t, exec (.syncedHop { ageing := .beforeContext, onset := .beforeContext }) s = .next t
      ∧ t.ap = { s.ap with hopCount := 0 } ∧ exec (.sampleReceived slot h) s = exec (.sampleReceived slot h) t) ∧
  (∀ (slot : BitVec 32) (s : State), s.sc.resetHeld = false → s.ap.syncPresent = true → s.ap.slotOpen = true →
    s.ap.hopCount < 256 ∨ s.sc.part = .init →
    ∃ t, exec (.sampleReceived slot none) s = .next t
      ∧ t.ap = { s.ap with
          sampleCounter := s.ap.sampleCounter + 1, hopCount := min 256 (s.ap.hopCount + 1), slotOpen := false }
      ∧ t.hm = s.hm.write s.ap.sampleCounter
          (saturate24 ((slot.extractLsb' 8 24).toInt - s.inp.offset))
      ∧ t.pt = s.pt ∧ t.cu = s.cu ∧ t.cfg = s.cfg ∧ t.peers = s.peers
      ∧ (∀ v : VoiceIx, t.voices[v].cfg = s.voices[v].cfg)
      ∧ (s.inp.measurement = none → t.inp = s.inp ∧ t.sc.part = s.sc.part)
      ∧ (∀ m, s.inp.measurement = some m → m.taken + 1 < m.length →
          t.inp = { s.inp with
            measurement := some { m with sum := m.sum + (slot.extractLsb' 8 24).toInt, taken := m.taken + 1 } }
          ∧ t.sc.part = s.sc.part)
      ∧ (∀ m, s.inp.measurement = some m → m.length ≤ m.taken + 1 →
          ∀ n : Int, n = (2 * (m.sum + (slot.extractLsb' 8 24).toInt) + m.length) / (2 * m.length) →
          t.inp = { s.inp with
            measurement := none, offset := max (-524287) (min 524287 n)
            calClamped := s.inp.calClamped || decide (524287 < n.natAbs) }
          ∧ t.sc.part = .setup)
      ∧ (∀ x : Vector Int 8, x = State.voiceSamples (Vector.replicate 8 true) { s with hm := t.hm } →
          t.bm = (s.mix x).bm
          ∧ (∀ v : VoiceIx, t.voices[v].eng.clip = (s.mix x).voices[v].eng.clip)
          ∧ ((∀ m, s.inp.measurement = some m → m.taken + 1 < m.length) → t.sc = (s.mix x).sc)
          ∧ (∀ m, s.inp.measurement = some m → m.length ≤ m.taken + 1 →
              t.sc = { (s.mix x).sc with
                part := .setup, causes := (s.mix x).sc.causes ||| 0x20
                capture := (s.mix x).sc.capture.map (Capture.keepRaised .done) }))
      ∧ ((∀ v : VoiceIx, s.voices[v].eng.state ≠ .hold) → t.link = s.link)
      ∧ (∀ w : VoiceIx → SampleWork,
          (∀ v, w v = s.voices[v].sampleWork { marks := s.pt.marks, history := t.hm, holdLimit := s.cfg.holdLimit } true) →
          (∀ v : VoiceIx, t.voices[v]
            = { (w v).voice with eng := { (w v).voice.eng with clip := t.voices[v].eng.clip } })
          ∧ t.link = ((List.finRange 8).filter fun v => (w v).drop).foldl (fun l v => l.offer (.drop v)) s.link)
      ∧ (∀ v : VoiceIx, s.voices[v].eng.state = .off ∨ s.voices[v].eng.state = .idle →
          t.voices[v].plan = s.voices[v].plan
          ∧ t.voices[v].eng = { s.voices[v].eng with clip := t.voices[v].eng.clip })
      ∧ t.bm.mute = s.bm.mute
      ∧ (s.bm.mute = true → ∀ b : BusIx, t.bm.tx[b] = 0)) ∧
  (∀ (slot : BitVec 32) (o : HopOrder) (s : State), s.ap.hopCount < 255 →
    exec (.sampleReceived slot (some o)) s = exec (.sampleReceived slot none) s) ∧
  (∀ (slot : BitVec 32) (o : HopOrder) (s : State), s.sc.resetHeld = false → s.ap.syncPresent = true →
    s.ap.slotOpen = true → s.ap.hopCount < 256 ∨ s.sc.part = .init →
    ∃ a h t : State,
      exec .measurementCompletes
        { s with
          ap := { s.ap with
            sampleCounter := s.ap.sampleCounter + 1, hopCount := min 256 (s.ap.hopCount + 1), slotOpen := false }
          hm := s.hm.write s.ap.sampleCounter (saturate24 ((slot.extractLsb' 8 24).toInt - s.inp.offset))
          inp := { s.inp with
            measurement := s.inp.measurement.map fun m =>
              { m with sum := m.sum + (slot.extractLsb' 8 24).toInt, taken := m.taken + 1 } } } = .next a
      ∧ exec (.syncedHop o) a = .next h
      ∧ exec (.sampleReceived slot (some o)) s = .next t
      ∧ (∀ w : VoiceIx → SampleWork,
          (∀ v, w v = h.voices[v].sampleWork { marks := h.pt.marks, history := h.hm, holdLimit := h.cfg.holdLimit }
            (decide (s.voices[v].eng.state = .hold))) →
          (∀ v : VoiceIx, t.voices[v]
            = { (w v).voice with
                eng := { (w v).voice.eng with clip := (h.mix (Vector.ofFn fun u => (w u).sample)).voices[v].eng.clip } })
          ∧ t.link = ((List.finRange 8).filter fun v => (w v).drop).foldl (fun l v => l.offer (.drop v)) h.link
          ∧ t.bm = (h.mix (Vector.ofFn fun u => (w u).sample)).bm
          ∧ t.sc = (h.mix (Vector.ofFn fun u => (w u).sample)).sc)
      ∧ t.ap = h.ap ∧ t.inp = h.inp ∧ t.hm = h.hm ∧ t.pt = h.pt ∧ t.cu = h.cu ∧ t.cfg = h.cfg ∧ t.peers = h.peers
      ∧ t.pending = h.pending) ∧
  ∀ (slot : BitVec 32) (o : HopOrder) (s : State), s.sc.resetHeld = false → s.ap.syncPresent = true →
    s.ap.slotOpen = true → s.ap.hopCount = 255 → s.sc.part ≠ .init →
    ∃ t, exec (.sampleReceived slot (some o)) s = .next t
      ∧ t.ap = { s.ap with sampleCounter := s.ap.sampleCounter + 1, hopCount := 0, slotOpen := false }
      ∧ t.hm = s.hm.write s.ap.sampleCounter (saturate24 ((slot.extractLsb' 8 24).toInt - s.inp.offset))
      ∧ t.inp.level = t.hm.hopLevel
      ∧ t.pt.record = State.hopRecord { s with hm := t.hm } t.hm.hopLevel
      ∧ t.cfg = s.cfg

/-- R14, R15: a sample number is held when it lies at most 4095 and less than the fill count before W, and any other reads 0; a
sample just written reads back at its number; and where the numbering is unbroken and the ring canonical, every other held
sample but the one 4096 earlier reads as before. -/
def Obligations.HistoryReadsWhatWasWritten : Prop :=
  (∀ (h : HistoryMemory) (n : SampleNumber),
    (h.held n = true ↔ 0 ≤ distance n h.newest ∧ distance n h.newest ≤ 4095 ∧ distance n h.newest < h.fill)
    ∧ (h.held n = false → h.read n = 0)) ∧
  (∀ (h : HistoryMemory) (n : SampleNumber) (x : Sample), h.wf → (h.write n x).read n = x) ∧
  ∀ (h : HistoryMemory) (x : Sample) (m : SampleNumber), h.wf → h.held m = true → m ≠ h.newest - 4095 →
    (h.write (h.newest + 1) x).read m = h.read m

/-- R150 to R153: the mixing of one sample, from the eight voice samples: on each bus the weighted samples are summed, scaled
and saturated, and go to the transmit register unless MUTE is 1; a bus that saturates with clip state 0 counts an episode
and raises CLIP; every loud voice on a saturating bus is marked; nothing else changes. Roundings are to
nearest with halves up, and saturation is to 24 bits. The frame that sends a register has
its four samples in slots 0 to 3, each most significant bit first with 8 zeros after it, and 0 on ASDO from the 128th bit on. -/
def Obligations.MixingFormsBusesAndClips : Prop :=
  (∀ x : Int, (saturate24 x).toInt = max (-8388608) (min 8388607 x)) ∧
  (∀ (n : Int) (d : Nat), 0 < d → (2 * roundHalfUp n d - 1) * d ≤ 2 * n ∧ 2 * n < (2 * roundHalfUp n d + 1) * d) ∧
  (∀ (x : Vector Int 8) (s : State),
    (∀ b : BusIx, s.scaledSum x b
      = roundHalfUp
          ((((List.finRange 8).filter fun v => s.voices[v].cfg.bus = b).map fun v =>
            roundHalfUp (x[v] * gainFactor s.voices[v].cfg.gain) 16384).sum * gainFactor s.bm.buses[b].gain) 16384)
    ∧ (∀ b : BusIx, (s.mix x).bm.tx[b] = if s.bm.mute then 0 else saturate24 (s.scaledSum x b))
    ∧ (∀ b : BusIx, (s.mix x).bm.buses[b]
        = { gain := s.bm.buses[b].gain
            clipState := decide (s.scaledSum x b < -8388608 ∨ 8388607 < s.scaledSum x b)
            clipCount :=
              if (s.scaledSum x b < -8388608 ∨ 8388607 < s.scaledSum x b) ∧ s.bm.buses[b].clipState = false then
                min 255 (s.bm.buses[b].clipCount + 1)
              else s.bm.buses[b].clipCount })
    ∧ (∀ v : VoiceIx, (s.mix x).voices[v]
        = { s.voices[v] with
            eng := { s.voices[v].eng with
              clip := s.voices[v].eng.clip
                || (decide (s.scaledSum x s.voices[v].cfg.bus < -8388608 ∨ 8388607 < s.scaledSum x s.voices[v].cfg.bus)
                  && decide (2097152 < (roundHalfUp (x[v] * gainFactor s.voices[v].cfg.gain) 16384).natAbs)) } })
    ∧ (s.mix x).sc
        = (if ∃ b : BusIx, (s.scaledSum x b < -8388608 ∨ 8388607 < s.scaledSum x b) ∧ s.bm.buses[b].clipState = false then
            { s.sc with causes := s.sc.causes ||| 0x04, capture := s.sc.capture.map (Capture.keepRaised .clip) }
          else s.sc)
    ∧ (s.mix x).bm.mute = s.bm.mute ∧ (s.mix x).ap = s.ap ∧ (s.mix x).inp = s.inp ∧ (s.mix x).hm = s.hm
    ∧ (s.mix x).pt = s.pt ∧ (s.mix x).cu = s.cu ∧ (s.mix x).cfg = s.cfg ∧ (s.mix x).link = s.link
    ∧ (s.mix x).peers = s.peers ∧ (s.mix x).sc.part = s.sc.part ∧ (s.mix x).pending = s.pending) ∧
  ∀ (a : AudioPort) (n : Nat),
    (∀ (tx : Vector Sample 4) (b : BusIx) (i : Nat), a.sending = some tx → n = 32 * b.val + i → i < 32 →
      a.asdo n = (decide (i < 24) && tx[b].getLsbD (23 - i)))
    ∧ (128 ≤ n → a.asdo n = false) ∧ (a.sending = none → a.asdo n = false)

/-- R3, R6, R7, R12, R27, R136, R151, R154: a sync loss: the monitor is in SYNC LOST and the free timer runs; the
record is unvoiced; a measurement is abandoned; every voice is stopped and loses its claim; the transmit register and
clip states are 0; SYNC is raised. The history, the marks, the Context Unit, the words and the Peer Table stand. The
DROPs of the sounding voices are offered in index order, and with the last voiced flag 1 a LEAD before or after them, in
whichever order (log 4), which sets the LEAD count to 0 (log 32). A hop left due is taken before the
loss, in the order log 5 names. -/
def Obligations.SyncLossStopsEverything : Prop :=
  (∀ (leadFirst : Bool) (s : State), s.sc.resetHeld = false → s.ap.syncPresent = true → s.ap.monitorTimer = true →
    256 ≤ s.ap.hopCount → s.sc.part ≠ .init →
    ∃ t, exec (.syncedHop { ageing := .beforeContext, onset := .beforeContext }) s = .next t
      ∧ t.ap = { s.ap with hopCount := 0 } ∧ exec (.syncLossEvent leadFirst) s = exec (.syncLossEvent leadFirst) t) ∧
  ∀ (leadFirst : Bool) (s : State), s.sc.resetHeld = false → s.ap.syncPresent = true → s.ap.monitorTimer = true →
    s.ap.hopCount < 256 ∨ s.sc.part = .init →
    ∃ t, exec (.syncLossEvent leadFirst) s = .next t
      ∧ t.ap = { s.ap with
          syncPresent := false, monitorTimer := false, hopCount := 0, freeTimer := true, slotOpen := false
          sending := none }
      ∧ t.pt = { s.pt with record := { s.pt.record with voiced := false, confidence := 0 } }
      ∧ t.hm = s.hm ∧ t.cu = s.cu ∧ t.cfg = s.cfg ∧ t.peers = s.peers
      ∧ (∀ v : VoiceIx, t.voices[v].cfg = s.voices[v].cfg
          ∧ t.voices[v].eng = { s.voices[v].eng with
              state := (match s.voices[v].eng.state with
                | .off => .off
                | .idle => .idle
                | _ => if s.voices[v].cfg.enabled then .idle else .off)
              disablePending := false, envelope := 0, grains := [] }
          ∧ (s.voices[v].eng.state.sounding = true → t.voices[v].plan =
            { s.voices[v].plan with
              claim := none, decided := none, onAlternate := false, freeCount := 0, doubled := false })
          ∧ (s.voices[v].eng.state.sounding = false → t.voices[v].plan = s.voices[v].plan))
      ∧ (∀ b : BusIx, t.bm.tx[b] = 0 ∧ t.bm.buses[b] = { s.bm.buses[b] with clipState := false })
      ∧ t.bm.mute = s.bm.mute
      ∧ t.sc.causes.getLsbD 1 = true
      ∧ (s.inp.measurement = none → t.inp = s.inp ∧ t.sc.part = s.sc.part ∧ t.sc.causes = s.sc.causes ||| 0x02)
      ∧ (∀ m, s.inp.measurement = some m →
          t.inp = { s.inp with measurement := none, calAborted := true } ∧ t.sc.part = .setup
          ∧ t.sc.causes = s.sc.causes ||| 0x22)
      ∧ t.link.lastVoiced = false ∧ t.link.state = s.link.state
      ∧ t.link.slot.map (·.frame) = s.link.slot.map (·.frame)
      ∧ (∀ drops lead : LinkController → LinkController,
          (∀ l, drops l = ((List.finRange 8).filter fun v => s.voices[v].eng.state.sounding).foldl
            (fun l v => l.offer (.drop v)) l) →
          (∀ l, lead l =
            { (if l.lastVoiced then { l.offer .lead with leadCount := 0 } else l) with lastVoiced := false }) →
          t.link = if leadFirst then drops (lead s.link) else lead (drops s.link))

/-- R7, R35 to R43, R50, R51, R55, R108 to R111, R122, R123: a free hop, in whichever order the ageing is taken: the
Context Unit advances and the Peer Table ages as `State.contextHop` says; a held-note change offers a LEAD and leaves the
LEAD count at 0, which otherwise stands; the KEY count counts, and a key change or a count of 128 offers a KEY; the quiet
count counts, and at REFRESH offers a HELLO; a pin released by the ageing offers a KEY at the ageing's place. PEER is
raised by a removal, CONTEXT by a change. The free timer runs on; the audio port, the Input Stage, the history, the tracker,
the engines, the mixer and the words stand, and of the planning part only the free counts change, to 0 at a held-note or
context change. No hop falls in INIT (log 14). That the KEY count counts the hop before the offer, and that one KEY serves a
change and the limit together, is read from R108 to R110 (log 20). -/
def Obligations.FreeHopLeavesLeadAndVoices : Prop :=
  ∀ (o : HopOrder) (s : State), s.sc.resetHeld = false → s.ap.freeTimer = true → s.sc.part ≠ .init →
    ∃ t, exec (.freeHop o) s = .next t
      ∧ t.ap = s.ap ∧ t.inp = s.inp ∧ t.hm = s.hm ∧ t.pt = s.pt ∧ t.bm = s.bm ∧ t.cfg = s.cfg
      ∧ t.sc.part = s.sc.part
      ∧ t.cu.decisionCount = (if s.cu.decisionCount + 1 < 16 then s.cu.decisionCount + 1 else 0)
      ∧ (∀ v : VoiceIx, t.voices[v].cfg = s.voices[v].cfg ∧ t.voices[v].eng = s.voices[v].eng
          ∧ t.voices[v].plan = { s.voices[v].plan with freeCount := t.voices[v].plan.freeCount })
      ∧ t.link.state = s.link.state ∧ t.link.lastVoiced = s.link.lastVoiced
      ∧ t.link.slot.map (·.frame) = s.link.slot.map (·.frame)
      ∧ t.pending = s.pending
      ∧ s.contextHop t s.pt.record o.ageing
      ∧ (∀ v : VoiceIx, t.voices[v].plan.freeCount
          = if t.cu.held ≠ s.cu.held ∨ t.cu.key ≠ s.cu.key ∨ s.pinExpires = true then 0 else s.voices[v].plan.freeCount)
      ∧ (∀ raised : BitVec 7,
          raised = (if (List.finRange 8).any s.peerExpires then 0x08 else 0)
            ||| (if s.pinExpires = true ∨ t.cu.key ≠ s.cu.key then 0x10 else 0) →
          t.sc = { s.sc with
            causes := s.sc.causes ||| raised
            capture := s.sc.capture.map fun
              | .attn k => .attn (k &&& ~~~raised)
              | .context k => .context (k && !raised.getLsbD 4) })
      ∧ (∀ key : LinkController → LinkController, (∀ l, key l = { l.offer .key with keyCount := 0 }) →
          ∀ l0 l1 l2 l3 l4 l5 : LinkController,
          l0 = (if s.pinExpires = true ∧ (o.ageing = .beforeContext ∨ o.ageing = .afterContext) then key s.link
            else s.link) →
          l1 = (if t.cu.held ≠ s.cu.held then { l0.offer .lead with leadCount := 0 } else l0) →
          l2 = { l1 with keyCount := l1.keyCount + 1 } →
          l3 = (if t.cu.key ≠ s.cu.key ∨ 128 ≤ l2.keyCount then key l2 else l2) →
          l4 = { l3 with quietCount := l3.quietCount + 1 } →
          l5 = (if s.cfg.refresh ≤ l4.quietCount then { l4.offer (.hello false) with quietCount := 0 } else l4) →
          t.link = if s.pinExpires = true ∧ (o.ageing = .afterLink ∨ o.ageing = .afterPlanner) then key l5 else l5)

/-- R6, R9, R17, R26, R30, R35 to R43, R68, R72 to R78, R108 to R111, R122, R130, R131, R165: a synced hop, in whichever
order the blocks it leaves open are taken: the hop count is 0; the level and the record are those of the hop, the last
voiced pair and the mark list follow; the Context Unit advances and the Peer Table ages as `State.contextHop` says; the last
voiced flag and the LEAD count follow the record; a voiced onset wakes the part; PEER is raised by a removal and CONTEXT by
a change; every voice is planned on the record, the
held note, the key, the peers and the part state at the planner's place, and handed over: the reload buffer, the gain
command, the claim. The link is given whole, with the KEY of a released pin
and the HELLO of an onset at their places. The history, the mixer and the words stand.
Then what a hand-over does to a voice: the table of gain commands, the entry to ONSET with its grain, and the claim created,
replaced, settled, made firm, refreshed or dropped. A hop count of 256 is the model's mark of a due hop (log 5). That the KEY
count counts the hop before the offer, and that one KEY serves a change and the limit together, is read from R108 to R110
(log 20). -/
def Obligations.SyncedHopTracksAndHandsOver : Prop :=
  (∀ (o : HopOrder) (s : State), s.sc.resetHeld = false → s.ap.syncPresent = true → s.ap.hopCount = 256 →
    s.sc.part ≠ .init →
    ∃ t, exec (.syncedHop o) s = .next t
      ∧ t.ap = { s.ap with hopCount := 0 }
      ∧ t.hm = s.hm ∧ t.bm = s.bm ∧ t.cfg = s.cfg
      ∧ t.inp = { s.inp with level := s.hm.hopLevel }
      ∧ t.pt.record = s.hopRecord s.hm.hopLevel
      ∧ t.pt.prevVoiced = s.pt.record.voiced
      ∧ t.pt.lastVoiced = (if (s.hopRecord s.hm.hopLevel).voiced then
          { period := (s.hopRecord s.hm.hopLevel).period, cents := (s.hopRecord s.hm.hopLevel).cents }
        else s.pt.lastVoiced)
      ∧ t.pt.marks = markWork s.hm (s.hopRecord s.hm.hopLevel) s.pt.record.voiced s.pt.marks
      ∧ (∀ v : VoiceIx, t.voices[v].cfg = s.voices[v].cfg ∧ t.voices[v].eng.reload = t.voices[v].plan.period)
      ∧ s.contextHop t t.pt.record o.ageing
      ∧ t.link.lastVoiced = t.pt.record.voiced
      ∧ t.link.leadCount = (if t.cu.held = s.cu.held ∧ t.pt.record.voiced = true ∧ s.link.lastVoiced = true
          ∧ s.link.leadCount + 1 < 4 then s.link.leadCount + 1 else 0)
      ∧ (∀ wakes : Bool,
          wakes = (decide (s.sc.part = .standby) && t.pt.record.voiced && !s.pt.record.voiced && s.sc.wakeOnVoice) →
          (∀ raised : BitVec 7,
            raised = (if (List.finRange 8).any s.peerExpires then 0x08 else 0)
              ||| (if s.pinExpires = true ∨ t.cu.key ≠ s.cu.key then 0x10 else 0) →
            t.sc = { s.sc with
              part := if wakes then .live else s.sc.part
              liveEntry := s.sc.liveEntry || wakes
              causes := s.sc.causes ||| raised
              capture := s.sc.capture.map fun
                | .attn k => .attn (k &&& ~~~raised)
                | .context k => .context (k && !raised.getLsbD 4) })
          ∧ t.pending = s.pending
          ∧ ∃ p : State, p.cfg = s.cfg ∧ p.hm = s.hm ∧ p.pt = t.pt ∧ p.cu.held = t.cu.held ∧ p.cu.key = t.cu.key
            ∧ p.peers = (if o.ageing = .afterPlanner then s.peers else s.ageing.peers) ∧ p.sc.station = s.sc.station
            ∧ p.sc.part = (if wakes ∧ o.onset ≠ .afterPlanner then .live else s.sc.part)
            ∧ (∀ v : VoiceIx, p.voices[v] =
                if t.cu.held ≠ s.cu.held ∨ t.cu.key ≠ s.cu.key ∨ (s.pinExpires = true ∧ o.ageing ≠ .afterPlanner) then
                  { s.voices[v] with plan := { s.voices[v].plan with freeCount := 0 } }
                else s.voices[v])
            ∧ ∀ h : VoiceIx → Voice × Option Entry,
              (∀ v, h v = p.planVoices.voices[v].handOver p.renderEnv s.cfg t.pt.record.voiced v) →
              (∀ v : VoiceIx, t.voices[v] =
                if s.pinExpires = true ∧ o.ageing = .afterPlanner then
                  { (h v).1 with plan := { (h v).1.plan with freeCount := 0 } }
                else (h v).1)
              ∧ (∀ (key woken : LinkController → LinkController) (visit : Place → LinkController → LinkController),
                (∀ l, key l = { l.offer .key with keyCount := 0 }) →
                (∀ l, woken l = LinkController.offer (if s.sc.liveEntry = false ∧ l.state = .listen then
                    key ({ l with state := .active, stuckMonitor := .dominant }.offer (.hello true))
                  else l) (.hello false)) →
                (∀ place l, visit place l = (if wakes = true ∧ o.onset = place then
                    woken (if s.pinExpires = true ∧ o.ageing = place then key l else l)
                  else if s.pinExpires = true ∧ o.ageing = place then key l else l)) →
                ∀ l0 l1 l2 l3 l4 l5 : LinkController,
                l0 = visit .afterContext (visit .beforeContext s.link) →
                l1 = { (if t.cu.held ≠ s.cu.held ∨ t.pt.record.voiced ≠ s.link.lastVoiced
                      ∨ (t.pt.record.voiced = true ∧ 4 ≤ s.link.leadCount + 1) then l0.offer .lead else l0) with
                    lastVoiced := t.pt.record.voiced, leadCount := t.link.leadCount } →
                l2 = { l1 with keyCount := l1.keyCount + 1 } →
                l3 = (if t.cu.key ≠ s.cu.key ∨ 128 ≤ l2.keyCount then { l2.offer .key with keyCount := 0 } else l2) →
                l4 = { l3 with quietCount := l3.quietCount + 1 } →
                l5 = (if s.cfg.refresh ≤ l4.quietCount then { l4.offer (.hello false) with quietCount := 0 } else l4) →
                t.link = visit .afterPlanner
                  (((List.finRange 8).filterMap fun v => (h v).2).foldl LinkController.offer (visit .afterLink l5))))) ∧
  (∀ (env : RenderEnv) (cfg : Setup) (voiced : Bool) (v : VoiceIx) (vo : Voice),
    vo.handOver env cfg voiced v
      = Voice.claimWork cfg v { vo with eng := { vo.eng with reload := vo.plan.period } }
          (Voice.gainCommand env vo.plan.decided.isSome voiced { vo with eng := { vo.eng with reload := vo.plan.period } })) ∧
  (∀ (env : RenderEnv) (raise voiced : Bool) (vo : Voice),
    (vo.eng.state = .off → vo.gainCommand env raise voiced = vo)
    ∧ (vo.eng.state = .idle ∨ vo.eng.state = .fade →
        vo.gainCommand env true true = vo.enterOnset env ∧ vo.gainCommand env true false = vo
        ∧ vo.gainCommand env false voiced = vo)
    ∧ (vo.eng.state = .onset ∨ vo.eng.state = .sound → vo.gainCommand env true true = vo
        ∧ vo.gainCommand env true false =
          if vo.cfg.fadeOnLoss = false ∧ 0 < env.holdLimit then
            { vo with eng := { vo.eng with state := .hold, holdTimer := 0 } }
          else { vo.withoutClaim with eng := { vo.eng with state := .fade } })
    ∧ (vo.eng.state = .hold → vo.gainCommand env true true = { vo with eng := { vo.eng with state := .sound } }
        ∧ vo.gainCommand env true false = vo)
    ∧ (vo.eng.state.sounding = true →
        vo.gainCommand env false voiced = { vo.withoutClaim with eng := { vo.eng with state := .fade } })
    ∧ (∀ e : Engine, e = { vo.eng with
          state := .onset, disablePending := false, epoch := vo.eng.reload
          envelope := if vo.eng.state = .fade then vo.eng.envelope else 0 } →
        (sourceMark env.history.newest env.marks = none →
          vo.enterOnset env = { vo with eng := { e with starve := min 255 (e.starve + 1) } })
        ∧ ∀ m, sourceMark env.history.newest env.marks = some m →
          vo.enterOnset env = { vo with
            eng := { e with
              grains := (if e.grains.length < 4 then e.grains else e.grains.tail)
                ++ [{ mark := m.pos, period := m.period, index := 0, remaining := 2 * ((m.period + 8) / 16) }]
              cut := if e.grains.length < 4 then e.cut else min 255 (e.cut + 1) } })) ∧
  ∀ (cfg : Setup) (v : VoiceIx) (b a : Voice),
    (b.eng.state.sounding = false → a.eng.state.sounding = false → Voice.claimWork cfg v b a = (a, none))
    ∧ (b.eng.state.sounding = true → a.eng.state.sounding = false → Voice.claimWork cfg v b a = (a, some (.drop v)))
    ∧ ∀ n, a.eng.state.sounding = true → a.plan.decided = some n →
      (b.eng.state.sounding = false ∨ (∃ c, a.plan.claim = some c ∧ c.note ≠ n) →
        Voice.claimWork cfg v b a =
          ({ a with plan := { a.plan with claim := some { note := n, firm := false, settle := 0 }, refreshCount := 0 } },
            some (.claim v false a.cfg.rule n)))
      ∧ ∀ c k, b.eng.state.sounding = true → a.plan.claim = some c → c.note = n →
        k = (if c.firm = false ∧ a.eng.state ≠ .hold then c.settle + 1 else c.settle) →
        (c.firm = false → cfg.settle ≤ k →
          Voice.claimWork cfg v b a =
            ({ a with plan := { a.plan with claim := some { note := n, firm := true, settle := k }, refreshCount := 0 } },
              some (.claim v true a.cfg.rule n)))
        ∧ (c.firm = true ∨ k < cfg.settle →
          Voice.claimWork cfg v b a =
            ({ a with
                plan := { a.plan with
                  claim := some { c with settle := k }
                  refreshCount := if cfg.refresh ≤ a.plan.refreshCount + 1 then 0 else a.plan.refreshCount + 1 } },
              if cfg.refresh ≤ a.plan.refreshCount + 1 then some (.claim v c.firm a.cfg.rule n) else none))

/-- R10, R11: a measurement whose taken count has reached N completes: the offset is the mean rounded halves up, held
within −524287..524287 with CAL_CLAMPED set by the clamp alone, the part returns to SETUP and DONE is raised. That
the event is a command of its own, which acts when its condition stands, is the model's (log 3). -/
def Obligations.MeasurementSetsOffset : Prop :=
  ∀ (m : Measurement) (s : State), s.sc.resetHeld = false → s.inp.measurement = some m → m.length ≤ m.taken →
    0 < m.length →
    exec .measurementCompletes s = .next
      { s with
        inp := { s.inp with
          measurement := none
          offset := max (-524287) (min 524287 ((2 * m.sum + m.length) / (2 * m.length)))
          calClamped := s.inp.calClamped || decide (524287 < ((2 * m.sum + m.length) / (2 * m.length)).natAbs) }
        sc := { s.sc with
          part := .setup, causes := s.sc.causes ||| 0x20, capture := s.sc.capture.map (Capture.keepRaised .done) } }

/-! ## The events of one voice -/

/-- R138, R140, R142, R134, R76: an epoch gains the reload buffer. With a source mark, a grain of it starts at index
0 with 2 × Pm samples to come; with 4 in flight the oldest ends and the cut counter counts it. Starved, it is counted
in ONSET, SOUND and HOLD; in HOLD the voice also enters FADE without its claim and a DROP is offered; in FADE nothing
starts or counts. That the event is a command of its own, which acts when its condition stands, is the model's (log
3). -/
def Obligations.EpochStartsGrainOrStarves : Prop :=
  (∀ (v : VoiceIx) (m : Mark) (s : State), s.sc.resetHeld = false → s.voices[v].eng.runsEpochs = true →
    s.voices[v].eng.epoch ≤ 0 → sourceMark s.hm.newest s.pt.marks = some m →
    exec (.epoch v) s = .next
      (s.setVoice v { s.voices[v] with
        eng := { s.voices[v].eng with
          epoch := s.voices[v].eng.epoch + s.voices[v].eng.reload
          grains :=
            (if s.voices[v].eng.grains.length < 4 then s.voices[v].eng.grains else s.voices[v].eng.grains.tail)
              ++ [{ mark := m.pos, period := m.period, index := 0, remaining := 2 * ((m.period + 8) / 16) }]
          cut :=
            if s.voices[v].eng.grains.length < 4 then s.voices[v].eng.cut else min 255 (s.voices[v].eng.cut + 1) } })) ∧
  (∀ (v : VoiceIx) (s : State), s.sc.resetHeld = false → s.voices[v].eng.epoch ≤ 0 →
    sourceMark s.hm.newest s.pt.marks = none →
    (s.voices[v].eng.state = .onset ∨ s.voices[v].eng.state = .sound →
      exec (.epoch v) s = .next
        (s.setVoice v { s.voices[v] with
          eng := { s.voices[v].eng with
            epoch := s.voices[v].eng.epoch + s.voices[v].eng.reload
            starve := min 255 (s.voices[v].eng.starve + 1) } }))
    ∧ (s.voices[v].eng.state = .hold →
      exec (.epoch v) s = .next
        ((s.setVoice v { s.voices[v] with
          plan := { s.voices[v].plan with
            claim := none, decided := none, onAlternate := false, freeCount := 0, doubled := false }
          eng := { s.voices[v].eng with
            state := .fade
            epoch := s.voices[v].eng.epoch + s.voices[v].eng.reload
            starve := min 255 (s.voices[v].eng.starve + 1) } }).offer (.drop v)))
    ∧ (s.voices[v].eng.state = .fade → 0 < s.voices[v].eng.envelope →
      exec (.epoch v) s = .next
        (s.setVoice v { s.voices[v] with
          eng := { s.voices[v].eng with epoch := s.voices[v].eng.epoch + s.voices[v].eng.reload } })))

/-- R139: the source mark is the newest mark of the list that a full period of history follows and whose grain's first sample
is retained; there is none exactly when no mark of the list is such. R29 to R34: at a synced hop the marks before
W − 4095 + 2 × Pm go first; with the record unvoiced none is added; with the previous hop unvoiced or no mark left, one is added
at the loudest sample of the last step of samples after every mark, the newest of several; otherwise the row goes on from the newest
mark by the hop's step while it does not pass W; and of marks beyond 24 the oldest go. That every mark due to age goes, not a
run of the oldest alone, is read from R30 (log 17). -/
def Obligations.SourceMarkIsNewestQualifying : Prop :=
  (∀ (h : HistoryMemory) (new : PitchRecord) (prev : Bool) (marks aged : List Mark) (step : Nat), marks.length ≤ 24 →
    step = (new.period + 8) / 16 →
    aged = marks.filter (fun m => decide (distance m.pos h.newest ≤ 4095 - 2 * (((m.period + 8) / 16 : Nat) : Int))) →
    (new.voiced = false → markWork h new prev marks = aged)
    ∧ (new.voiced = true → prev = false ∨ aged = [] → ∀ width : Nat,
        width = (match aged.getLast? with
          | some m => min step (distance m.pos h.newest).toNat
          | none => step) →
        0 < width →
        ∃ back, back < width
          ∧ (∀ j, j < width → (h.read (h.newest - BitVec.ofNat 32 j)).toInt.natAbs
              ≤ (h.read (h.newest - BitVec.ofNat 32 back)).toInt.natAbs)
          ∧ (∀ j, j < back → (h.read (h.newest - BitVec.ofNat 32 j)).toInt.natAbs
              < (h.read (h.newest - BitVec.ofNat 32 back)).toInt.natAbs)
          ∧ markWork h new prev marks
            = (if aged.length < 24 then aged else aged.tail)
              ++ [{ pos := h.newest - BitVec.ofNat 32 back, period := new.period }])
    ∧ ∀ (m : Mark) (k : Nat) (row : List Mark), new.voiced = true → prev = true → aged.getLast? = some m →
        ((k * step : Nat) : Int) ≤ distance m.pos h.newest → distance m.pos h.newest < (((k + 1) * step : Nat) : Int) →
        row = aged ++ (List.range k).map (fun i =>
          { pos := m.pos + BitVec.ofNat 32 ((i + 1) * step), period := new.period : Mark }) →
        markWork h new prev marks = row.drop (row.length - 24)) ∧
  ∀ (w : SampleNumber) (marks : List Mark),
    (∀ m, sourceMark w marks = some m ↔
      ∃ older newer, marks = older ++ m :: newer
        ∧ (((m.period + 8) / 16 : Nat) : Int) ≤ distance m.pos w
        ∧ distance m.pos w + ((m.period + 8) / 16 : Nat) ≤ 4095
        ∧ ∀ n ∈ newer, ¬((((n.period + 8) / 16 : Nat) : Int) ≤ distance n.pos w
            ∧ distance n.pos w + ((n.period + 8) / 16 : Nat) ≤ 4095))
    ∧ (sourceMark w marks = none ↔
      ∀ n ∈ marks, ¬((((n.period + 8) / 16 : Nat) : Int) ≤ distance n.pos w
        ∧ distance n.pos w + ((n.period + 8) / 16 : Nat) ≤ 4095))

/-- R132 to R134, R137, R76: the end tests of a voice: its ended grains leave the list; ONSET with a full envelope
becomes SOUND; FADE with envelope 0 and no grain becomes OFF when a disable is pending and IDLE otherwise; a hold
timer at 256 × HOLDLIMIT takes the voice to FADE without its claim, its envelope, epoch counter and grains standing,
and offers a DROP. That the event is a command of its own, which acts when its condition stands, is the model's (log
3). R137 to R144: the whole per-sample work of an engine, from the voice before it. An engine in OFF or IDLE hands over 0 and does
nothing. Any other takes in turn: the epoch, its counter less 16 and at 0 or less gained by the reload buffer with a
grain start, a new grain or a starved epoch; the envelope's step of its ramp; the voice sample, the sum of the grains' windowed
samples times the envelope, rounded halves up and saturated; each grain's index one up and its remaining length one down, a grain
at 0 removed; the end tests; and in HOLD the timer one up, with FADE and a DROP at the limit. `counts` is false at the
sample of the hop at which the voice entered HOLD (R133). That a voice which a starved epoch takes out of HOLD has its envelope fall
at the same sample, its timer not counting it, is a deduction (log 23). -/
def Obligations.VoiceEndTestsAndHoldLimit : Prop :=
  (∀ (env : RenderEnv) (counts : Bool) (vo : Voice),
    (vo.eng.state = .off ∨ vo.eng.state = .idle →
      vo.sampleWork env counts = { voice := vo, sample := 0, drop := false })
    ∧ ∀ (a d : Voice × Bool) (b c : Voice), vo.eng.state ≠ .off → vo.eng.state ≠ .idle →
      a = (if vo.eng.state = .fade ∧ vo.eng.envelope = 0 then (vo, false)
        else if 16 < vo.eng.epoch then ({ vo with eng := { vo.eng with epoch := vo.eng.epoch - 16 } }, false)
        else Voice.startGrain env { vo with eng := { vo.eng with epoch := vo.eng.epoch - 16 + vo.eng.reload } }) →
      b = { a.1 with
        eng := { a.1.eng with
          envelope := if a.1.eng.state = .fade then a.1.eng.envelope - 32767 / (256 * vo.cfg.release)
            else min 32767 (a.1.eng.envelope + 32767 / (256 * vo.cfg.attack)) } } →
      c = (let left := (b.eng.grains.map fun g => { g with index := g.index + 1, remaining := g.remaining - 1 }).filter
            fun g => 0 < g.remaining
        let ends := decide (b.eng.state = .fade ∧ b.eng.envelope = 0 ∧ left = [])
        { b with
          eng := { b.eng with
            grains := left
            state := if b.eng.state = .onset ∧ b.eng.envelope = 32767 then .sound
              else if ends then (if b.eng.disablePending then .off else .idle) else b.eng.state
            disablePending := b.eng.disablePending && !ends } }) →
      d = (if c.eng.state = .hold ∧ counts = true then
          (if 256 * env.holdLimit ≤ c.eng.holdTimer + 1 then
            ({ c with
              plan := { c.plan with
                claim := none, decided := none, onAlternate := false, freeCount := 0, doubled := false }
              eng := { c.eng with holdTimer := c.eng.holdTimer + 1, state := .fade } }, true)
          else ({ c with eng := { c.eng with holdTimer := c.eng.holdTimer + 1 } }, false))
        else (c, false)) →
      vo.sampleWork env counts =
        { voice := d.1
          sample := max (-8388608) (min 8388607
            ((2 * ((b.eng.grains.map (·.sample env.history)).sum * b.eng.envelope) + 32768) / 65536))
          drop := a.2 || d.2 }) ∧
  (∀ (env : RenderEnv) (vo : Voice),
    (∀ m, sourceMark env.history.newest env.marks = some m →
      vo.startGrain env = ({ vo with
        eng := { vo.eng with
          grains := (if vo.eng.grains.length < 4 then vo.eng.grains else vo.eng.grains.tail)
            ++ [{ mark := m.pos, period := m.period, index := 0, remaining := 2 * ((m.period + 8) / 16) }]
          cut := if vo.eng.grains.length < 4 then vo.eng.cut else min 255 (vo.eng.cut + 1) } }, false))
    ∧ (sourceMark env.history.newest env.marks = none →
      (vo.eng.state = .onset ∨ vo.eng.state = .sound →
        vo.startGrain env = ({ vo with eng := { vo.eng with starve := min 255 (vo.eng.starve + 1) } }, false))
      ∧ (vo.eng.state = .hold →
        vo.startGrain env = ({ vo with
          plan := { vo.plan with claim := none, decided := none, onAlternate := false, freeCount := 0, doubled := false }
          eng := { vo.eng with state := .fade, starve := min 255 (vo.eng.starve + 1) } }, true))
      ∧ (vo.eng.state = .fade → vo.startGrain env = (vo, false)))) ∧
  (∀ (h : HistoryMemory) (g : Grain) (pm : Nat), pm = (g.period + 8) / 16 →
    g.sample h
      = (2 * ((h.read (g.mark - BitVec.ofNat 32 pm + BitVec.ofNat 32 g.index)).toInt * hann pm g.index) + 32768) / 65536) ∧
  (∀ (v : VoiceIx) (s : State), s.sc.resetHeld = false →
    exec (.grainEnd v) s = .next
      (s.setVoice v { s.voices[v] with
        eng := { s.voices[v].eng with grains := s.voices[v].eng.grains.filter fun g => 0 < g.remaining } })
    ∧ (s.voices[v].eng.state = .onset → s.voices[v].eng.envelope = 32767 →
      exec (.attackComplete v) s = .next
        (s.setVoice v { s.voices[v] with eng := { s.voices[v].eng with state := .sound } }))
    ∧ (s.voices[v].eng.state = .fade → s.voices[v].eng.envelope = 0 → s.voices[v].eng.grains = [] →
      exec (.fadeEnd v) s = .next
        (s.setVoice v { s.voices[v] with
          eng := { s.voices[v].eng with
            state := if s.voices[v].eng.disablePending then .off else .idle, disablePending := false } }))) ∧
  (∀ (v : VoiceIx) (s : State), s.sc.resetHeld = false → s.voices[v].eng.state = .hold →
    256 * s.cfg.holdLimit ≤ s.voices[v].eng.holdTimer →
    exec (.holdLimit v) s = .next
      ((s.setVoice v { s.voices[v] with
        plan := { s.voices[v].plan with
          claim := none, decided := none, onAlternate := false, freeCount := 0, doubled := false }
        eng := { s.voices[v].eng with state := .fade } }).offer (.drop v)))

/-- R88, R75, R77, R78: a claimed voice on its alternate whose free count has reached SETTLE decides for its primary; a soft
claim whose settle count has reached SETTLE becomes firm, with a firm CLAIM; a claim whose refresh count has reached REFRESH
is queued again as it stands, and either of these sets the refresh count to 0. That each is a command of its own, and that
the claim follows a return only at the next hand-over, is the model's (log 3). -/
def Obligations.ReturnFirmingAndRefresh : Prop :=
  (∀ (v : VoiceIx) (s : State), s.sc.resetHeld = false → s.voices[v].plan.claim ≠ none →
    s.voices[v].plan.onAlternate = true → s.cfg.settle ≤ s.voices[v].plan.freeCount →
    exec (.returnToPrimary v) s = .next
      (s.setVoice v { s.voices[v] with
        plan := { s.voices[v].plan with
          decided := s.voices[v].plan.primary, onAlternate := false, freeCount := 0, doubled := false } })) ∧
  ∀ (v : VoiceIx) (c : LocalClaim) (s : State), s.sc.resetHeld = false → s.voices[v].plan.claim = some c →
    (c.firm = false → s.cfg.settle ≤ c.settle →
      exec (.firming v) s = .next
        ((s.setVoice v { s.voices[v] with
          plan := { s.voices[v].plan with
            claim := some { note := c.note, firm := true, settle := c.settle }, refreshCount := 0 } }).offer
          (.claim v true s.voices[v].cfg.rule c.note)))
    ∧ (s.cfg.refresh ≤ s.voices[v].plan.refreshCount →
      exec (.claimRefresh v) s = .next
        ((s.setVoice v { s.voices[v] with plan := { s.voices[v].plan with refreshCount := 0 } }).offer
          (.claim v c.firm s.voices[v].cfg.rule c.note)))

/-- The rows that name an event whose condition does not stand in the state change nothing: the events inside a sample or a
hop, the expiries and the link's rows. The manual has no event then; that the row still steps is the model's (logs 3, 5, 14
to 16, 27). -/
def Obligations.RowsWaitForTheirCondition : Prop :=
  (∀ (v : VoiceIx) (s : State), s.sc.resetHeld = false →
    (s.voices[v].eng.runsEpochs = false ∨ 0 < s.voices[v].eng.epoch → exec (.epoch v) s = .next s)
    ∧ ((∀ g ∈ s.voices[v].eng.grains, 0 < g.remaining) → exec (.grainEnd v) s = .next s)
    ∧ (s.voices[v].eng.state ≠ .onset ∨ s.voices[v].eng.envelope < 32767 → exec (.attackComplete v) s = .next s)
    ∧ (s.voices[v].eng.state ≠ .fade ∨ 0 < s.voices[v].eng.envelope ∨ s.voices[v].eng.grains ≠ [] →
        exec (.fadeEnd v) s = .next s)
    ∧ (s.voices[v].eng.state ≠ .hold ∨ s.voices[v].eng.holdTimer < 256 * s.cfg.holdLimit →
        exec (.holdLimit v) s = .next s)
    ∧ (s.voices[v].plan.claim = none ∨ s.voices[v].plan.onAlternate = false
        ∨ s.voices[v].plan.freeCount < s.cfg.settle → exec (.returnToPrimary v) s = .next s)
    ∧ ((∀ c, s.voices[v].plan.claim = some c → c.firm = true ∨ c.settle < s.cfg.settle) →
        exec (.firming v) s = .next s)
    ∧ (s.voices[v].plan.claim = none ∨ s.voices[v].plan.refreshCount < s.cfg.refresh →
        exec (.claimRefresh v) s = .next s)) ∧
  (∀ s : State, s.sc.resetHeld = false →
    (s.cu.held = none ∨ s.cu.holdCount ≤ 8 → exec .holdLength s = .next s)
    ∧ (s.cu.decisionCount < 16 → exec .decisionHop s = .next s)
    ∧ (s.link.leadCount < 4 ∨ s.pt.record.voiced = false → exec .periodicLead s = .next s)
    ∧ (s.link.keyCount < 128 → exec .periodicKey s = .next s)
    ∧ (s.link.quietCount < s.cfg.refresh → exec .quietHello s = .next s)
    ∧ ((∀ m, s.inp.measurement = some m → m.taken < m.length) → exec .measurementCompletes s = .next s)
    ∧ (s.sc.part ≠ .init → exec .initCompletion s = .next s)) ∧
  (∀ (p : Station) (v : VoiceIx) (s : State), s.sc.resetHeld = false →
    ((∀ r, s.peers[p] = some r → ∀ c, r.claims[v] = some c → c.age ≤ 3 * s.cfg.refresh) →
        exec (.claimAgeLimit p v) s = .next s)
    ∧ ((∀ r, s.peers[p] = some r → r.silence ≤ min (4 * s.cfg.refresh) 255) → exec (.recordLimit p) s = .next s)) ∧
  (∀ (o : HopOrder) (slot : BitVec 32) (h : Option HopOrder) (leadFirst : Bool) (s : State), s.sc.resetHeld = false →
    (s.ap.hopCount < 256 ∨ s.ap.syncPresent = false ∨ s.sc.part = .init → exec (.syncedHop o) s = .next s)
    ∧ (s.ap.freeTimer = false ∨ s.sc.part = .init → exec (.freeHop o) s = .next s)
    ∧ (s.ap.syncPresent = false → exec (.sampleReceived slot h) s = .next s)
    ∧ (s.ap.slotOpen = false → s.ap.hopCount < 256 → exec (.sampleReceived slot h) s = .next s)
    ∧ (s.ap.syncPresent = false ∨ s.ap.monitorTimer = false → exec (.syncLossEvent leadFirst) s = .next s)) ∧
  ∀ (winner : Byte) (rx : Reception) (s : State), s.sc.resetHeld = false →
    (s.link.state ≠ .active ∨ s.link.queue = [] ∨ s.link.slot ≠ none ∨ s.link.receiver.isTaking = true →
        exec .startFrame s = .next s)
    ∧ (s.link.slot = none → exec (.lostArbitration winner) s = .next s ∧ exec .echoMismatch s = .next s
        ∧ exec .frameSent s = .next s)
    ∧ (∀ x, s.link.slot = some x → x.frame.b0 ≤ winner → exec (.lostArbitration winner) s = .next s)
    ∧ (s.link.state = .solo ∨ ((s.sc.part = .init ∨ s.link.slot ≠ none) ∧ ∀ bits, rx ≠ .levels bits) →
        exec (.receiveFrame rx) s = .next s)
    ∧ (s.link.state ≠ .active ∨ s.link.slot ≠ none → exec .stuck s = .next s)
    ∧ (s.link.state ≠ .stuck → exec .returnToActive s = .next s)

/-! ## Context Unit and send triggers -/

/-- R37, R38, R89, R109 to R111: a held note whose hold count has passed eight becomes none, the hold count and every
free count become 0 and a LEAD is offered; a LEAD at a LEAD count of 4 with the record voiced, a KEY at a KEY count
of 128, a HELLO with fresh 0 at a quiet count of REFRESH or more: each is offered and its count is 0, whatever the
queue does with the offer. That the event is a command of its own, which acts when its condition stands, is the
model's (log 3). -/
def Obligations.HopCountsBringTheirOffers : Prop :=
  (∀ (n : Nat) (s : State), s.sc.resetHeld = false → s.cu.held = some n → 8 < s.cu.holdCount →
    exec .holdLength s = .next
      { s with
        cu := { s.cu with held := none, holdCount := 0 }
        voices := Vector.ofFn fun v => { s.voices[v] with plan := { s.voices[v].plan with freeCount := 0 } }
        link := { s.link.offer .lead with leadCount := 0 } }) ∧
  (∀ s : State, s.sc.resetHeld = false →
    (4 ≤ s.link.leadCount → s.pt.record.voiced = true →
      exec .periodicLead s = .next { s with link := { s.link.offer .lead with leadCount := 0 } })
    ∧ (128 ≤ s.link.keyCount →
      exec .periodicKey s = .next { s with link := { s.link.offer .key with keyCount := 0 } })
    ∧ (s.cfg.refresh ≤ s.link.quietCount →
      exec .quietHello s = .next { s with link := { s.link.offer (.hello false) with quietCount := 0 } }))

/-- R42: a decision with the open-decision flag at 0: the key stays unless some MAJOR key's score is the greatest and beats
the current pitch class's score by more than an eighth of it; the key then moves to the lowest such. -/
def Obligations.KeyDecisionNeedsMargin : Prop :=
  ∀ (tally : Vector Nat 12) (key : Key),
    (∀ k : Fin 12, score tally k
      = ((List.finRange 7).map fun i => tally[pitchClass (k.val + ScaleKind.major.tones[i])]).sum)
    ∧ ((∀ k : Fin 12, score tally k ≤ score tally key.pc + score tally key.pc / 8) → marginDecision tally key = key)
    ∧ ∀ b : Fin 12, score tally key.pc + score tally key.pc / 8 < score tally b →
        (∀ k : Fin 12, score tally k ≤ score tally b) → (∀ k : Fin 12, k < b → score tally k < score tally b) →
        marginDecision tally key = { pc := b, kind := .major }

/-- R41, R42, R43, R51, R110: a decision hop sets the decision count to 0. In a pinned mode it does no more. In AUTO
the key becomes the decided one and the open-decision flag 0; a change is noted, raises CONTEXT, zeroes the free
counts and offers a KEY. With the open-decision flag at 1 the key decided is the best one outright, with no margin: a
MAJOR current key that scores the greatest, and otherwise the lowest that does, as MAJOR. That the event is a command of its
own, which acts when its condition stands, is the model's (log 3). -/
def Obligations.DecisionHopDecidesInAuto : Prop :=
  ∀ s : State, s.sc.resetHeld = false → 16 ≤ s.cu.decisionCount →
    (s.cu.mode ≠ .auto → exec .decisionHop s = .next { s with cu := { s.cu with decisionCount := 0 } })
    ∧ (s.cu.mode = .auto → s.cu.decide = s.cu.key →
      exec .decisionHop s = .next { s with cu := { s.cu with decisionCount := 0, openDecision := false } })
    ∧ (s.cu.mode = .auto → s.cu.decide ≠ s.cu.key →
      ∃ t, exec .decisionHop s = .next t
        ∧ t.cu = { s.cu with decisionCount := 0, openDecision := false, key := s.cu.decide, changed := true }
        ∧ t.sc.causes = s.sc.causes ||| 0x10 ∧ t.sc.part = s.sc.part
        ∧ (∀ v : VoiceIx, t.voices[v] = { s.voices[v] with plan := { s.voices[v].plan with freeCount := 0 } })
        ∧ t.link = { s.link.offer .key with keyCount := 0 }
        ∧ t.ap = s.ap ∧ t.inp = s.inp ∧ t.hm = s.hm ∧ t.pt = s.pt ∧ t.cfg = s.cfg ∧ t.peers = s.peers ∧ t.bm = s.bm)
    ∧ (s.cu.openDecision = false → s.cu.decide = marginDecision s.cu.tally s.cu.key)
    ∧ (s.cu.openDecision = true → ∀ b : Fin 12, (∀ k : Fin 12, score s.cu.tally k ≤ score s.cu.tally b) →
        (s.cu.key.kind = .major ∧ b = s.cu.key.pc)
          ∨ ((s.cu.key.kind ≠ .major ∨ score s.cu.tally s.cu.key.pc < score s.cu.tally b)
            ∧ ∀ k : Fin 12, k < b → score s.cu.tally k < score s.cu.tally b) →
        s.cu.decide = { pc := b, kind := .major })

/-- R51, R89, R110: the key, the mode and the open-decision flag set together: a key, mode or pinning station other than
before is noted in the flag, raises CONTEXT, zeroes every free count and offers a KEY; the same ones again change the flag of
the open decision alone. -/
def Obligations.ContextChangeIsReported : Prop :=
  ∀ (key : Key) (mode : KeyMode) (openD : Bool) (s : State),
    (key = s.cu.key → mode = s.cu.mode → s.setContext key mode openD = { s with cu := { s.cu with openDecision := openD } })
    ∧ (key ≠ s.cu.key ∨ mode ≠ s.cu.mode →
      (s.setContext key mode openD).cu = { s.cu with key := key, mode := mode, openDecision := openD, changed := true }
      ∧ (s.setContext key mode openD).sc.causes = s.sc.causes ||| 0x10
      ∧ (s.setContext key mode openD).sc.part = s.sc.part
      ∧ (∀ v : VoiceIx, (s.setContext key mode openD).voices[v]
          = { s.voices[v] with plan := { s.voices[v].plan with freeCount := 0 } })
      ∧ (s.setContext key mode openD).link = { s.link.offer .key with keyCount := 0 }
      ∧ (s.setContext key mode openD).ap = s.ap ∧ (s.setContext key mode openD).inp = s.inp
      ∧ (s.setContext key mode openD).hm = s.hm ∧ (s.setContext key mode openD).pt = s.pt
      ∧ (s.setContext key mode openD).cfg = s.cfg ∧ (s.setContext key mode openD).peers = s.peers
      ∧ (s.setContext key mode openD).bm = s.bm)

/-! ## Planner -/

/-- R60: the folded note has the pitch class of the unfolded one and lies in the lane; inside it is left alone, from below it
ends within LOW..LOW + 11, and from above within LOW + SPAN − 11..LOW + SPAN. -/
def Obligations.FoldingEndsInsideLane : Prop :=
  ∀ (low span : Nat) (t : Int), 12 ≤ span →
    (low : Int) ≤ foldIntoLane low span t ∧ foldIntoLane low span t ≤ low + span
    ∧ foldIntoLane low span t % 12 = t % 12
    ∧ (low ≤ t → t ≤ low + span → foldIntoLane low span t = t)
    ∧ (t < low → foldIntoLane low span t ≤ low + 11)
    ∧ (low + span < t → (low : Int) + span - 11 ≤ foldIntoLane low span t)

/-- R44, R57, R58, R59: the four tone tables; every held note snaps to a tone of the scale at most a semitone away, a note
between two tones to the lower, and its absolute degree taken no step along the scale is that snapped note; a step of seven
degrees is an octave. R59, R60: a voice's two candidates are the notes its rule's PRIMARY and ALTERNATE steps from that degree,
each folded into its lane. -/
def Obligations.ScaleStepsReturnToSnappedNote : Prop :=
  (ScaleKind.major.tones = #v[0, 2, 4, 5, 7, 9, 11] ∧ ScaleKind.minor.tones = #v[0, 2, 3, 5, 7, 8, 10]
    ∧ ScaleKind.harmonic.tones = #v[0, 2, 3, 5, 7, 8, 11] ∧ ScaleKind.mixolydian.tones = #v[0, 2, 4, 5, 7, 9, 10]) ∧
  (∀ (kind : ScaleKind) (o : Nat), kind.isTone o = true ↔ ∃ i : Fin 7, kind.tones[i] = o) ∧
  (∀ (key : Key) (held o : Nat), o = (((held : Int) - key.pc.val) % 12).toNat →
    (key.kind.isTone o = true → snappedNote key held = held)
    ∧ (key.kind.isTone o = false → key.kind.isTone (o - 1) = true → snappedNote key held = held - 1)
    ∧ (key.kind.isTone o = false → key.kind.isTone (o - 1) = false → snappedNote key held = held + 1)
    ∧ ∀ i : Fin 7, ((key.kind.tones[i] : Nat) : Int) = (snappedNote key held - key.pc.val) % 12 →
        absoluteDegree key held = 7 * ((snappedNote key held - key.pc.val) / 12) + i.val) ∧
  (∀ (key : Key) (q : Int) (i : Fin 7), noteOfDegree key (7 * q + i.val) = key.pc.val + key.kind.tones[i] + 12 * q) ∧
  (∀ (key : Key) (held : Nat) (rules : Vector IntervalRule 4) (vo : Voice), 12 ≤ vo.cfg.laneSpan →
    ∃ primary alternate : Nat,
      (primary : Int) = foldIntoLane vo.cfg.laneLow vo.cfg.laneSpan
        (noteOfDegree key (absoluteDegree key held + rules[vo.cfg.rule].primary))
      ∧ (alternate : Int) = foldIntoLane vo.cfg.laneLow vo.cfg.laneSpan
        (noteOfDegree key (absoluteDegree key held + rules[vo.cfg.rule].alternate))
      ∧ vo.withCandidates key held rules
        = { vo with plan := { vo.plan with primary := some primary, alternate := some alternate } }) ∧
  ∀ (key : Key) (held : Nat),
    (snappedNote key held - held).natAbs ≤ 1
    ∧ key.kind.isTone ((snappedNote key held - key.pc.val) % 12).toNat = true
    ∧ (key.kind.isTone (((held : Int) - key.pc.val) % 12).toNat = true → snappedNote key held = held)
    ∧ noteOfDegree key (absoluteDegree key held) = snappedNote key held
    ∧ ∀ d : Int, noteOfDegree key (d + 7) = noteOfDegree key d + 12

/-- R83, R84, R85: a candidate loses to a lead, to an own voice, and to a peer's claim against which the precedence test is lost,
whenever the notes collide; it passes exactly when it loses to no entry of the set; and the precedence test goes by firmness
and then by the lower station number. -/
def Obligations.CandidateLosesByCollision : Prop :=
  (∀ (byClass : Bool) (own p : Station) (v : VoiceIx) (vo : Voice) (n m : Nat) (firm : Bool) (set : List Sounding),
    (collides false n m = true ↔ n = m) ∧ (collides true n m = true ↔ n % 12 = m % 12)
    ∧ (losesTo byClass own vo n (.peerLead p m) = collides byClass n m)
    ∧ (losesTo byClass own vo n (.ownLead m) = collides byClass n m)
    ∧ (losesTo byClass own vo n (.ownVoice v m) = collides byClass n m)
    ∧ (losesTo byClass own vo n (.peerClaim p v m firm)
        = (collides byClass n m && !winsPrecedence (vo.firmOn n) own firm p))
    ∧ (passes byClass own set vo n = true ↔ ∀ e ∈ set, losesTo byClass own vo n e = false)) ∧
  (∀ (own peer : Station) (vo : Voice) (n : Nat),
    (winsPrecedence false own true peer = false) ∧ (winsPrecedence true own false peer = true)
    ∧ (∀ f : Bool, own ≠ peer → (winsPrecedence f own f peer = true ↔ own < peer))
    ∧ (vo.firmOn n = true ↔ ∃ c, vo.plan.claim = some c ∧ c.firm = true ∧ c.note = n))

/-- R80, R86, R87, R88: which voices are contested at a hop with a held note, that any other voice is left with no decided
note, and which contest a contested one has; the contest of a voice whose on-alternate flag is 0, and the five rows of the
anti-flutter table for a voice that holds a claim on its alternate. R62 to R67: the target, halves away from zero; the glide;
and the shift and synthesis period of a voice with a decided note that enters ONSET on its target or is sounding, each
clamped with the range-clamp flag set when the clamp acts; any other voice keeps its values. R81, R82: the sounding set holds
the voiced leads of an age of at most 12 hops, every peer claim and the own held note; the voices are contested in index order,
each against that set and the notes decided before it. R55, R56: with no held note the candidates are none and nothing else
changes; with one, candidates, contests and shifts follow one another. -/
def Obligations.ContestOutcomes : Prop :=
  (∀ (s : State) (held : Nat) (e : Sounding), e ∈ s.soundingSet held ↔
    (∃ (p : Station) (r : PeerRecord) (l : PeerLead) (n : Nat), e = .peerLead p n ∧ s.peers[p] = some r ∧ r.lead = some l
      ∧ l.voiced = true ∧ l.held = some n ∧ l.age ≤ 12)
    ∨ (∃ (p : Station) (v : VoiceIx) (r : PeerRecord) (c : PeerClaim), e = .peerClaim p v c.note c.firm
      ∧ s.peers[p] = some r ∧ r.claims[v] = some c)
    ∨ e = .ownLead held) ∧
  (∀ (s : State) (held : Nat),
    s.contestAll held = { s with voices := (s.contestAll held).voices }
    ∧ ∀ v : VoiceIx, (s.contestAll held).voices[v]
      = s.contestVoice
          (s.soundingSet held ++ ((List.finRange 8).filter (· < v)).flatMap fun u =>
            match (s.contestAll held).voices[u].plan.decided with
            | some n => [.ownVoice u n]
            | none => [])
          s.voices[v]) ∧
  (∀ s : State,
    (s.cu.held = none → s.planVoices = { s with
      voices := Vector.ofFn fun v =>
        { s.voices[v] with plan := { s.voices[v].plan with primary := none, alternate := none } } })
    ∧ ∀ (n : Nat) (c : State), s.cu.held = some n →
      c = State.contestAll
        { s with voices := Vector.ofFn fun v => s.voices[v].withCandidates s.cu.key n s.cfg.rules } n →
      s.planVoices = { s with
        voices := Vector.ofFn fun v =>
          c.voices[v].computeShift s.cfg.rules (s.pt.lastVoiced.cents - 100 * n) s.pt.lastVoiced s.pt.record.voiced }) ∧
  (∀ (double alternatePasses : Bool) (vo : Voice), vo.plan.onAlternate = false → vo.plan.freeCount = 0 →
    (vo.contestPrimary double true alternatePasses).plan
        = { vo.plan with decided := vo.plan.primary, doubled := false }
    ∧ (vo.contestPrimary double false true).plan
        = { vo.plan with decided := vo.plan.alternate, onAlternate := true, doubled := false }
    ∧ (vo.contestPrimary false false false).plan = { vo.plan with decided := none }
    ∧ (vo.contestPrimary true false false).plan = { vo.plan with decided := vo.plan.primary, doubled := true }
    ∧ (vo.contestPrimary double false alternatePasses).eng = vo.eng) ∧
  (∀ (settle : Nat) (double : Bool) (vo : Voice), vo.plan.claim ≠ none → vo.plan.onAlternate = true →
    (∀ alternatePasses : Bool, settle ≤ vo.plan.freeCount + 1 →
      (vo.contestAlternate settle double true alternatePasses).plan
        = { vo.plan with decided := vo.plan.primary, onAlternate := false, freeCount := 0, doubled := false })
    ∧ (vo.plan.freeCount + 1 < settle →
      (vo.contestAlternate settle double true true).plan
        = { vo.plan with decided := vo.plan.alternate, freeCount := vo.plan.freeCount + 1, doubled := false })
    ∧ (vo.plan.freeCount + 1 < settle →
      (vo.contestAlternate settle double true false).plan
        = { vo.plan with decided := vo.plan.primary, onAlternate := false, freeCount := 0, doubled := false })
    ∧ ((vo.contestAlternate settle double false true).plan
        = { vo.plan with decided := vo.plan.alternate, freeCount := 0, doubled := false })
    ∧ ((vo.contestAlternate settle false false false).plan
        = { vo.plan with decided := none, onAlternate := false, freeCount := 0 })
    ∧ ((vo.contestAlternate settle true false false).plan
        = { vo.plan with decided := vo.plan.primary, onAlternate := false, freeCount := 0, doubled := true })) ∧
  (∀ (part : PartState) (voiced : Bool) (vo : Voice),
    vo.contested part voiced = true ↔ vo.plan.claim ≠ none ∨ (part = .live ∧ voiced = true
      ∧ (vo.eng.state = .idle ∨ (vo.eng.state = .fade ∧ vo.eng.disablePending = false)))) ∧
  (∀ (s : State) (set : List Sounding) (vo : Voice) (double primary alternate : Bool),
    double = s.cfg.rules[vo.cfg.rule].double →
    primary = vo.plan.primary.any (passes s.cfg.collideClass s.sc.station set vo) →
    alternate = vo.plan.alternate.any (passes s.cfg.collideClass s.sc.station set vo) →
    s.contestVoice set vo =
      if vo.contested s.sc.part s.pt.record.voiced then
        if vo.plan.claim ≠ none ∧ vo.plan.onAlternate = true then
          vo.contestAlternate s.cfg.settle double primary alternate
        else vo.contestPrimary double primary alternate
      else { vo with plan := { vo.plan with decided := none } }) ∧
  (∀ (note : Nat) (d : Int) (follow : Nat),
    (0 ≤ d → targetCents note d follow = 100 * note + (2 * (d * follow) + 100) / 200)
    ∧ (d ≤ 0 → targetCents note d follow = 100 * note - (2 * (-d * follow) + 100) / 200)) ∧
  (∀ (glide : Nat) (target c : Int),
    (glide = 0 ∨ |target - c| ≤ glide → glideTo glide target c = target)
    ∧ (0 < glide → c + glide < target → glideTo glide target c = c + glide)
    ∧ (0 < glide → target < c - glide → glideTo glide target c = c - glide)) ∧
  ∀ (rules : Vector IntervalRule 4) (d : Int) (pair : VoicedPair) (voiced : Bool) (vo : Voice),
    (vo.plan.decided = none ∨ vo.eng.state = .off
        ∨ (voiced = false ∧ (vo.eng.state = .idle ∨ vo.eng.state = .fade)) →
      vo.computeShift rules d pair voiced = vo)
    ∧ ∀ (n : Nat) (target c shift : Int) (exact : Nat), vo.plan.decided = some n →
      target = targetCents n d rules[vo.cfg.rule].follow →
      ((voiced = true ∧ (vo.eng.state = .idle ∨ vo.eng.state = .fade) ∧ c = target)
        ∨ (vo.eng.state.sounding = true ∧ c = glideTo rules[vo.cfg.rule].glide target vo.plan.cents)) →
      shift = max (-1900) (min 1900 (c - pair.cents)) → exact = synthesisPeriod pair.period shift →
      vo.computeShift rules d pair voiced
        = { vo with
            plan := { vo.plan with cents := c, shift := shift, period := max 320 (min 25600 exact) }
            eng := { vo.eng with
              rangeClamp := vo.eng.rangeClamp
                || decide (c - pair.cents < -1900 ∨ 1900 < c - pair.cents ∨ exact < 320 ∨ 25600 < exact) } }

/-- R25, R66, R149: the three irrational values are rounded to nearest as the exact value would be: the lead cents of every
period of 640 to 9600, the synthesis period of every such period at every shift of −1900 to 1900, and the gain factor of every
code of 1 to 152, each by an inequality between whole numbers; the lead cents run from 3949 to 8637. The Hann window (R141) is
0 at its start, 32767 at the mark and symmetric about it, is 16384 at the half at Pm / 2, and lies within a half and a
millionth of its exact value at every index. R9: the level of a hop is the floor of its decibels, held within −144 to 0, from
the sum of its 256 squares. R17 to R25: the record of a hop: below a fill count of 1200 unvoiced, its period and lead cents
kept; from 1200 on, the differences and normalized differences of the newest 1200 samples, the first dip or the least value,
the refined period, the confidence, and voiced by the two thresholds. -/
def Obligations.IrrationalValuesRoundToNearest : Prop :=
  (∀ x : Nat, -144 ≤ levelOf x ∧ levelOf x ≤ 0
    ∧ ∀ n : Nat, n < 144 → (-(n : Int) ≤ levelOf x ↔ (256 * 8388607 ^ 2) ^ 10 ≤ x ^ 10 * 10 ^ n)) ∧
  (∀ h : HistoryMemory, h.hopLevel
    = levelOf (((List.range 256).map fun j => (h.read (h.newest - BitVec.ofNat 32 j)).toInt.natAbs ^ 2).sum)) ∧
  (∀ (level : Int) (s : State),
    (s.hm.fill < 1200 → s.hopRecord level = { s.pt.record with voiced := false, confidence := 0, level := level })
    ∧ ∀ (x : Nat → Int) (d n : Nat → Nat), 1200 ≤ s.hm.fill →
      (∀ j, x j = (s.hm.read (s.hm.newest - BitVec.ofNat 32 j)).toInt) →
      (∀ τ, d τ = ((List.range 600).map fun j => (x j - x (j + τ)).natAbs ^ 2).sum) →
      (∀ τ, n τ = if ((List.range τ).map fun i => d (i + 1)).sum = 0 then 4096
        else 4096 * d τ * τ / ((List.range τ).map fun i => d (i + 1)).sum) →
      ∃ lag period : Nat,
        s.hopRecord level =
          { voiced := decide (s.cfg.voicedThreshold ≤ 255 - min 255 (255 * n lag / 4096) ∧ s.cfg.gate ≤ level)
            period := period, confidence := 255 - min 255 (255 * n lag / 4096), cents := leadCents period, level := level }
        ∧ 40 ≤ lag ∧ lag ≤ 600
        ∧ ((lag ≤ 599 ∧ n lag < 614 ∧ n lag ≤ n (lag + 1)
            ∧ ∀ τ, 40 ≤ τ → τ < lag → ¬(n τ < 614 ∧ n τ ≤ n (τ + 1)))
          ∨ ((∀ τ, 40 ≤ τ → τ ≤ 599 → ¬(n τ < 614 ∧ n τ ≤ n (τ + 1)))
            ∧ (∀ τ, 40 ≤ τ → τ ≤ 600 → n lag ≤ n τ) ∧ ∀ τ, 40 ≤ τ → τ < lag → n lag < n τ))
        ∧ (lag = 40 ∨ lag = 600 → period = 16 * lag)
        ∧ (40 < lag → lag < 600 → ∀ a b c q m : Int, a = n (lag - 1) → b = n lag → c = n (lag + 1) → q = a - 2 * b + c →
            (q ≤ 0 → period = 16 * lag)
            ∧ (0 < q → m = max (-q) (min q (a - c)) → (period : Int) = (32 * lag * q + 16 * m + q) / (2 * q)))) ∧
  (∀ p : Nat, 640 ≤ p → p ≤ 9600 →
    ∃ l : Nat, leadCents p = l ∧ 3949 ≤ l ∧ l ≤ 8637
      ∧ 2 ^ (2 * l) * (11 * p) ^ 2400 ≤ 2 ^ 13801 * 19200 ^ 2400
      ∧ 2 ^ 13801 * 19200 ^ 2400 < 2 ^ (2 * l + 2) * (11 * p) ^ 2400) ∧
  (∀ (p : Nat) (d : Int), 640 ≤ p → p ≤ 9600 → -1900 ≤ d → d ≤ 1900 →
    (2 * synthesisPeriod p d - 1) ^ 1200 * 2 ^ d.toNat ≤ (2 * p) ^ 1200 * 2 ^ (-d).toNat
    ∧ (2 * p) ^ 1200 * 2 ^ (-d).toNat < (2 * synthesisPeriod p d + 1) ^ 1200 * 2 ^ d.toNat) ∧
  (∀ pm j : Nat, 1 ≤ pm → j ≤ pm → hann pm 0 = 0 ∧ hann pm pm = 32767 ∧ hann pm (pm - j) = hann pm (pm + j)) ∧
  (∀ m : Nat, 1 ≤ m → hann (2 * m) m = 16384) ∧
  (∀ pm k : Nat, 1 ≤ pm → k ≤ 2 * pm →
    |(hann pm k : ℝ) - 32767 * (1 - Real.cos (Real.pi * k / pm)) / 2| ≤ 1 / 2 + 1 / 10 ^ 6) ∧
  gainFactor 0 = 0 ∧
  ∀ c : Nat, 1 ≤ c → c ≤ 152 →
    (2 * gainFactor c - 1) ^ 40 * 10 ^ 128 ≤ 32768 ^ 40 * 10 ^ c
    ∧ 32768 ^ 40 * 10 ^ c < (2 * gainFactor c + 1) ^ 40 * 10 ^ 128

/-! ## Control port -/

/-- R10, R12, R163: in SETUP a calibration command enters CALIBRATE with a measurement of 8192 or 1024 samples begun; with
sync lost it is abandoned at once: CAL_ABORTED is set, the part is back in SETUP and DONE is raised. -/
def Obligations.CalibrateStartsMeasurement : Prop :=
  ∀ (arg : Byte) (s : State), s.sc.resetHeld = false → s.sc.part = .setup →
    (s.ap.syncPresent = true →
      exec (.calibrateLong arg) s = .next
        { s with
          sc := { s.sc with part := .calibrate, capture := none }
          inp := { s.inp with measurement := some { length := 8192, sum := 0, taken := 0 } } }
      ∧ exec (.calibrateShort arg) s = .next
        { s with
          sc := { s.sc with part := .calibrate, capture := none }
          inp := { s.inp with measurement := some { length := 1024, sum := 0, taken := 0 } } })
    ∧ (s.ap.syncPresent = false →
      exec (.calibrateLong arg) s = .next
        { s with
          sc := { s.sc with capture := none, causes := s.sc.causes ||| 0x20 }
          inp := { s.inp with measurement := none, calAborted := true } }
      ∧ exec (.calibrateShort arg) s = exec (.calibrateLong arg) s)

/-- R162, R102, R110, R112: GO in SETUP with sync present enters LIVE. The first entry since the reset takes a link in LISTEN
to ACTIVE and offers a fresh HELLO and then a KEY; a link in SOLO or MUTED stays as it is. -/
def Obligations.GoEntersLive : Prop :=
  ∀ (arg : Byte) (s : State), s.sc.resetHeld = false → s.sc.part = .setup → s.ap.syncPresent = true →
    (s.sc.liveEntry = false → s.link.state = .listen → s.link.queue = [] →
      exec (.go arg) s = .next
        { s with
          sc := { s.sc with part := .live, liveEntry := true, capture := none }
          link := { s.link with
            state := .active, stuckMonitor := .dominant, queue := [.hello true, .key], keyCount := 0, quietCount := 0 } })
    ∧ (s.link.state = .solo ∨ s.link.state = .muted →
      exec (.go arg) s = .next { s with sc := { s.sc with part := .live, liveEntry := true, capture := none } })

/-- R164, R165, R135, R76, R112: STANDBY in LIVE: every voice in ONSET, SOUND or HOLD enters FADE without its claim
and every other voice stands; the DROPs are offered in index order and then a HELLO with fresh 0. WAKE in STANDBY
returns the part to LIVE, changes no voice and offers a HELLO with fresh 0. The order of these offers is the model's
(log 10). -/
def Obligations.StandbyFadesAndWakeReturns : Prop :=
  (∀ (arg : Byte) (s : State), s.sc.resetHeld = false → s.sc.part = .live →
    exec (.standby arg) s = .next
      { s with
        sc := { s.sc with part := .standby, capture := none }
        voices := Vector.ofFn fun v =>
          if s.voices[v].eng.state.sounding then
            { s.voices[v] with
              plan := { s.voices[v].plan with
                claim := none, decided := none, onAlternate := false, freeCount := 0, doubled := false }
              eng := { s.voices[v].eng with state := .fade } }
          else s.voices[v]
        link := (((List.finRange 8).filter fun v => s.voices[v].eng.state.sounding).foldl
          (fun l v => l.offer (.drop v)) s.link).offer (.hello false) }) ∧
  (∀ (arg : Byte) (s : State), s.sc.resetHeld = false → s.sc.part = .standby → s.sc.liveEntry = true →
    exec (.wake arg) s = .next
      { s with
        sc := { s.sc with part := .live, capture := none }
        link := s.link.offer (.hello false) })

/-- R46, R47: PIN with a key pitch class of 0 to 11 sets the key and kind it carries and PINNED-LOCAL; UNPIN from a pinned
mode keeps the key, returns to AUTO and sets the open-decision flag; UNPIN in AUTO changes nothing. A change is reported as
R51 has it. Neither touches the KEYCFG word. -/
def Obligations.PinAndUnpinSetMode : Prop :=
  ∀ (arg : Byte) (s : State), s.sc.resetHeld = false → s.sc.part = .setup ∨ s.sc.part = .live ∨ s.sc.part = .standby →
    (∀ h : arg.toNat % 16 < 12,
      exec (.pin arg) s = .next
        (State.setContext { pc := ⟨arg.toNat % 16, h⟩, kind := ScaleKind.ofCode (arg.toNat / 16 % 4) } .pinnedLocal false
          { s with sc := { s.sc with capture := none } }))
    ∧ (s.cu.mode ≠ .auto →
      exec (.unpin arg) s = .next
        (State.setContext s.cu.key .auto true { s with sc := { s.sc with capture := none } }))
    ∧ (s.cu.mode = .auto → exec (.unpin arg) s = .next { s with sc := { s.sc with capture := none } })

/-- R171: CLEAR, taken in SETUP, LIVE and STANDBY, sets every error and event counter and every sticky flag to 0, and nothing
else; in CALIBRATE it is refused. -/
def Obligations.ClearZeroesCountersAlone : Prop :=
  (∀ (arg : Byte) (s : State), s.sc.resetHeld = false → s.sc.part = .calibrate →
    exec (.clear arg) s = .next { s with sc := { s.sc with capture := none, causes := s.sc.causes ||| 0x40 } }) ∧
  ∀ (arg : Byte) (s : State), s.sc.resetHeld = false → s.sc.part = .setup ∨ s.sc.part = .live ∨ s.sc.part = .standby →
    exec (.clear arg) s = .next
      { s with
        sc := { s.sc with capture := none }
        voices := Vector.ofFn fun v =>
          { s.voices[v] with
            eng := { s.voices[v].eng with starve := 0, cut := 0, rangeClamp := false, clip := false } }
        link := { s.link with rxCrc := 0, echo := 0, queueDrops := 0 }
        bm := { s.bm with
          buses := Vector.ofFn fun b => { s.bm.buses[b] with clipCount := 0 } }
        inp := { s.inp with calClamped := false, calAborted := false } }

/-- R166, R159, R161, R162, R46, 10.3: a refused write or command leaves every piece of state as it was and raises
REFUSED: an unlisted code; a command in a part state that does not take it; GO with sync lost; PIN with a key pitch
class of 12 or more; a setup word outside SETUP; a live word in CALIBRATE. A read in progress is ended (log 22). -/
def Obligations.RefusalRaisesRefusedAlone : Prop :=
  ∀ (c : Instr) (s : State), s.sc.resetHeld = false → s.sc.part ≠ .init →
    ((∃ code arg, c = .unknownCode code arg ∧ knownCode code = false)
      ∨ (∃ arg, c = .go arg ∧ (s.sc.part ≠ .setup ∨ s.ap.syncPresent = false))
      ∨ (∃ arg, (c = .calibrateLong arg ∨ c = .calibrateShort arg) ∧ s.sc.part ≠ .setup)
      ∨ (∃ arg, c = .standby arg ∧ s.sc.part ≠ .live)
      ∨ (∃ arg, c = .wake arg ∧ s.sc.part ≠ .standby)
      ∨ (∃ arg, c = .pin arg ∧ (s.sc.part = .calibrate ∨ 12 ≤ arg.toNat % 16))
      ∨ (∃ arg, (c = .unpin arg ∨ c = .clear arg) ∧ s.sc.part = .calibrate)
      ∨ (∃ data, c = .keycfg data ∧ s.sc.part ≠ .setup)
      ∨ (∃ data m, (c = .enable data ∨ c = .attnMask data ∨ c = .mute m) ∧ s.sc.part = .calibrate)
      ∨ (∃ addr data, c = .writeWord addr data ∧ (wordAt addr).access = .setup ∧ s.sc.part ≠ .setup)
      ∨ (∃ addr data, c = .writeWord addr data ∧ (wordAt addr).access = .live ∧ s.sc.part = .calibrate)) →
    exec c s = .next { s with sc := { s.sc with capture := none, causes := s.sc.causes ||| 0x40 } }

/-- R157, R159: an abandoned transaction, by its count of bits, its fixed bit or a reset, has no effect; in INIT every write and
command is ignored; and a write to a read-only word, a read-clear word or an unused word is ignored in every part state. No
cause is raised. R157, R158, R173: on the port's lines the fall of CSEL begins a transaction; each CSCK clock takes a bit, and
the eighth of a read captures the word its header addresses; at the rise of CSEL 24 bits with the fixed bit 0 take effect, a
write as the same whole write and a read by the completion of its capture, and any other number of bits or a fixed bit of 1 has
none; and with no fall of CSEL since the last reset nothing is taken. That the lines come as operands of this row, in parts as
may be, is the model's (logs 12 and 22). -/
def Obligations.IgnoredTransactionsDoNothing : Prop :=
  (∀ (how : Abandonment) (nbits : Nat) (bits : BitVec 24) (s : State), s.sc.resetHeld = false →
    how = .byReset ∨ (how = .count nbits bits ∧ (nbits ≠ 24 ∨ bits.getLsbD 16 = true)) →
    exec (.transactionAbandoned [] (some how)) s = .next { s with sc := { s.sc with capture := none } }) ∧
  (∀ s : State, s.sc.resetHeld = false →
    (∀ (a b : List PortEvent) (ended : Option Abandonment) (t : State), exec (.transactionAbandoned a none) s = .next t →
      exec (.transactionAbandoned (a ++ b) ended) s = exec (.transactionAbandoned b ended) t)
    ∧ exec (.transactionAbandoned [.fall] none) s = .next { s with sc := { s.sc with capture := none, port := some [] } }
    ∧ (s.sc.port = none → ∀ bit : Bool, exec (.transactionAbandoned [.clock bit] none) s = .next s
      ∧ exec (.transactionAbandoned [.rise] none) s = .next s)
    ∧ (∀ (bits : List Bool) (bit : Bool), s.sc.port = some bits → bits.length ≠ 7 ∨ bits.head? = some false →
      exec (.transactionAbandoned [.clock bit] none) s = .next { s with sc := { s.sc with port := some (bits ++ [bit]) } })
    ∧ (∀ (addr : BitVec 6) (bit : Bool), s.sc.port = some (true :: [5, 4, 3, 2, 1, 0].map addr.getLsbD) →
      exec (.transactionAbandoned [.clock bit] none) s = .next
        { s with
          sc := { s.sc with
            port := some (true :: [5, 4, 3, 2, 1, 0].map addr.getLsbD ++ [bit])
            shiftOut := s.readWord addr
            capture := if addr = 0x02 then some (.attn s.sc.causes) else if addr = 0x05 then some (.context true)
              else none } })
    ∧ (∀ bits : List Bool, s.sc.port = some bits → bits.length ≠ 24 ∨ bits[7]? = some true →
      exec (.transactionAbandoned [.rise] none) s = .next { s with sc := { s.sc with port := none, capture := none } })
    ∧ ∀ (addr : BitVec 6) (data : Word16) (read : Bool) (u : State),
      s.sc.port = some (read :: [5, 4, 3, 2, 1, 0].map addr.getLsbD ++ false :: (List.range 16).reverse.map data.getLsbD) →
      u = { s with sc := { s.sc with port := none } } →
      exec (.transactionAbandoned [.rise] none) s =
        match read, s.sc.capture with
        | false, _ => exec (.writeWord addr data) u
        | true, some (.attn _) => exec (.attn .complete) u
        | true, some (.context _) => exec (.context .complete) u
        | true, none => .next u) ∧
  (∀ (addr : BitVec 6) (data : Word16) (code arg : Byte) (m : Bool) (s : State), s.sc.resetHeld = false →
    s.sc.part = .init →
    ∀ c ∈ [Instr.writeWord addr data, .keycfg data, .enable data, .mute m, .attnMask data, .go arg, .calibrateLong arg,
      .calibrateShort arg, .standby arg, .wake arg, .pin arg, .unpin arg, .clear arg, .unknownCode code arg],
      exec c s = .next { s with sc := { s.sc with capture := none } }) ∧
  ∀ (addr : BitVec 6) (data : Word16) (s : State), s.sc.resetHeld = false →
    (wordAt addr).access = .readOnly ∨ (wordAt addr).access = .readClear ∨ (wordAt addr).access = .unused →
    exec (.writeWord addr data) s = .next { s with sc := { s.sc with capture := none } }

/-- R45, R51: KEYCFG written in SETUP holds a key of 12 to 15 as 11 and, with AUTO, the kind as MAJOR, and sets the key, the
mode and the open-decision flag from what it holds; a change is reported as R51 has it. -/
def Obligations.KeycfgWriteSetsContext : Prop :=
  ∀ (data : Word16) (s : State), s.sc.resetHeld = false → s.sc.part = .setup →
    exec (.keycfg data) s = .next
      (State.setContext (keyConfigOf data).key (if (keyConfigOf data).pinned then .pinnedLocal else .auto) false
        { s with sc := { s.sc with capture := none }, cfg := { s.cfg with keycfg := keyConfigOf data } })
    ∧ (keyConfigOf data).key.pc.val = min 11 (data.toNat % 16)
    ∧ ((keyConfigOf data).pinned = true ↔ data.getLsbD 6 = true)
    ∧ (data.getLsbD 6 = false → (keyConfigOf data).key.kind = .major)
    ∧ (data.getLsbD 6 = true → (keyConfigOf data).key.kind.code = data.toNat / 16 % 4)

/-- R129, R152, R165, R76: an ENABLE write in SETUP, LIVE or STANDBY acts on each voice whose bit it changes by the
table of R129, and leaves the others; MUTE and WAKE_ON_VOICE take their bits; a DROP is offered for each voice taken
to FADE, in index order. A write that repeats every bit but MUTE sets MUTE and changes nothing else. The order of
these offers and the reading of the MUTE row are the model's (logs 10 and 7). -/
def Obligations.EnableWriteActsPerVoice : Prop :=
  (∀ (data : Word16) (s : State), s.sc.resetHeld = false → s.sc.part = .setup ∨ s.sc.part = .live ∨ s.sc.part = .standby →
    ∃ t, exec (.enable data) s = .next t
      ∧ (∀ v : VoiceIx, s.voices[v].cfg.enabled = data.getLsbD v.val → t.voices[v] = s.voices[v])
      ∧ (∀ v : VoiceIx, s.voices[v].cfg.enabled = false → data.getLsbD v.val = true →
          t.voices[v].cfg = { s.voices[v].cfg with enabled := true } ∧ t.voices[v].plan = s.voices[v].plan
          ∧ t.voices[v].eng = (match s.voices[v].eng.state with
            | .off => { s.voices[v].eng with state := .idle }
            | .fade => { s.voices[v].eng with disablePending := false }
            | _ => s.voices[v].eng))
      ∧ (∀ v : VoiceIx, s.voices[v].cfg.enabled = true → data.getLsbD v.val = false →
          t.voices[v].cfg = { s.voices[v].cfg with enabled := false }
          ∧ t.voices[v].eng = (match s.voices[v].eng.state with
            | .off => s.voices[v].eng
            | .idle => { s.voices[v].eng with state := .off }
            | .fade => { s.voices[v].eng with disablePending := true }
            | _ => { s.voices[v].eng with state := .fade, disablePending := true })
          ∧ t.voices[v].plan = (if s.voices[v].eng.state.sounding then
              { s.voices[v].plan with
                claim := none, decided := none, onAlternate := false, freeCount := 0, doubled := false }
            else s.voices[v].plan))
      ∧ t.bm = { s.bm with mute := data.getLsbD 8 }
      ∧ t.sc = { s.sc with wakeOnVoice := data.getLsbD 9, capture := none }
      ∧ t.link = ((List.finRange 8).filter fun v =>
          s.voices[v].cfg.enabled && !data.getLsbD v.val && s.voices[v].eng.state.sounding).foldl
            (fun l v => l.offer (.drop v)) s.link
      ∧ t.ap = s.ap ∧ t.inp = s.inp ∧ t.hm = s.hm ∧ t.pt = s.pt ∧ t.cu = s.cu ∧ t.cfg = s.cfg ∧ t.peers = s.peers) ∧
  (∀ (m : Bool) (s : State), s.sc.resetHeld = false → s.sc.part = .setup ∨ s.sc.part = .live ∨ s.sc.part = .standby →
    exec (.mute m) s = .next { s with bm := { s.bm with mute := m }, sc := { s.sc with capture := none } })

/-- R169: a mask write holds the seven low bits, and the line is low after it exactly when some pending cause is unmasked; a
raise makes its cause pending, keeps the others, and pulls the line low exactly when the line was low or the cause is
unmasked. -/
def Obligations.AttentionLineFollowsPendingAndMask : Prop :=
  (∀ (data : Word16) (s : State), s.sc.resetHeld = false → s.sc.part = .setup ∨ s.sc.part = .live ∨ s.sc.part = .standby →
    exec (.attnMask data) s = .next { s with sc := { s.sc with mask := data.extractLsb' 0 7, capture := none } }) ∧
  (∀ s : State, s.attentionLow = true ↔ ∃ i, i < 7 ∧ s.sc.causes.getLsbD i = true ∧ s.sc.mask.getLsbD i = false) ∧
  ∀ (c : Cause) (s : State),
    (s.raise c).attentionLow = (s.attentionLow || !s.sc.mask.getLsbD c.index)
    ∧ ∀ i, i < 7 → (s.raise c).sc.causes.getLsbD i = (s.sc.causes.getLsbD i || decide (i = c.index))

/-- R170, R158, R51: a read of ATTN captures the pending set and the number of its most urgent cause and clears what
it captured when it completes; a cause raised between the capture and the completion stays pending. A read of CONTEXT
captures the word and clears the context-changed flag when it completes, unless a context change was made in between.
Capture and completion as commands of their own, and the register the captured word stands in, are the model's (logs
6 and 8). R157, R173: CSDO is driven while CSEL is low alone: with bits 15 to 0 of the captured word in the second half of a
read, and 0 at all other times. R4, R28, R51, R126, R146, R151, R168, R174, 11.4: what a read of IDENT, STATE, ATTN, ATTN_MASK,
CONTEXT, LEAD, LEADINFO, PEERS, LINKERR, QDROP, OFFSET, BUSGAIN, VSTAT, ENABLE and the words that read 0 captures, field by field,
with every value in its range. -/
def Obligations.ReadClearsWhatItCaptured : Prop :=
  (∀ s : State, s.csdo false = none ∧ (s.sc.port = none → s.csdo true = some false)
    ∧ ∀ bits : List Bool, s.sc.port = some bits →
      (∀ i : Nat, i < 16 → bits.length = 8 + i → bits.head? = some true →
        s.csdo true = some (s.sc.shiftOut.getLsbD (15 - i)))
      ∧ (bits.length < 8 ∨ 24 ≤ bits.length ∨ bits.head? = some false → s.csdo true = some false)) ∧
  (∀ s : State,
    s.readWord 0x00 = 0x4701
    ∧ (s.readWord 0x01).toNat
      = (match s.sc.part with
          | .init => 0
          | .setup => 1
          | .calibrate => 2
          | .live => 3
          | .standby => 4)
        + 8 * (match s.sc.cause with
          | .power => 0
          | .pin => 1
          | .word => 2)
        + 32 * s.sc.station.val + 256 * s.sc.solo.toNat + 512 * (decide (s.sc.part = .init)).toNat
        + 1024 * (decide (s.sc.part = .calibrate)).toNat
        + 2048 * (match s.link.state with
          | .solo => 0
          | .listen => 1
          | .active => 2
          | .stuck => 3
          | .muted => 4)
        + 16384 * s.ap.syncPresent.toNat
    ∧ (s.readWord 0x02).toNat = s.sc.causes.toNat + 256 * mostUrgent s.sc.causes
    ∧ (s.readWord 0x03).toNat = s.sc.mask.toNat
    ∧ (s.readWord 0x05).toNat
      = s.cu.key.pc.val
        + 16 * (match s.cu.key.kind with
          | .major => 0
          | .minor => 1
          | .harmonic => 2
          | .mixolydian => 3)
        + (match s.cu.mode with
          | .auto => 0
          | .pinnedLocal => 64
          | .pinnedPeer p => 128 + 256 * p.val)
        + 32768 * s.cu.changed.toNat
    ∧ (0 ≤ s.pt.record.cents → s.pt.record.cents < 65536 → ((s.readWord 0x06).toNat : Int) = s.pt.record.cents)
    ∧ (s.pt.record.confidence ≤ 255 → s.pt.record.level ≤ 0 →
        ((s.readWord 0x07).toNat : Int)
          = s.pt.record.confidence + 256 * min 127 (-s.pt.record.level) + 32768 * s.pt.record.voiced.toNat)
    ∧ (∀ p : Station, (s.readWord 0x08).getLsbD p.val = s.peers[p].isSome
        ∧ (s.readWord 0x08).getLsbD (8 + p.val) = s.peers[p].any (·.resting))
    ∧ (s.link.rxCrc ≤ 255 → s.link.echo ≤ 255 → (s.readWord 0x09).toNat = s.link.rxCrc + 256 * s.link.echo)
    ∧ (s.link.queueDrops ≤ 255 → (s.readWord 0x0A).toNat
        = s.link.queueDrops + 256 * s.inp.calClamped.toNat + 512 * s.inp.calAborted.toNat)
    ∧ (-524288 ≤ s.inp.offset → s.inp.offset ≤ 524287 → (s.readWord 0x0B).toInt = s.inp.offset / 16)
    ∧ (∀ b : BusIx, s.bm.buses[b].gain ≤ 255 → s.bm.buses[b].clipCount ≤ 255 →
        (s.readWord (BitVec.ofNat 6 (0x2C + b.val))).toNat = s.bm.buses[b].gain + 256 * s.bm.buses[b].clipCount)
    ∧ (∀ v : VoiceIx, (s.readWord (BitVec.ofNat 6 (0x38 + v.val / 2))).toNat / 256 ^ (v.val % 2) % 256
        = (match s.voices[v].eng.state with
            | .off => 0
            | .idle => 1
            | .onset => 2
            | .sound => 3
            | .hold => 4
            | .fade => 5)
          + 8 * (s.voices[v].plan.claim.any (·.firm)).toNat + 16 * s.voices[v].plan.doubled.toNat
          + 32 * s.voices[v].eng.rangeClamp.toNat + 64 * s.voices[v].eng.clip.toNat
          + 128 * (decide (0 < s.voices[v].eng.starve ∨ 0 < s.voices[v].eng.cut)).toNat)
    ∧ (∀ v : VoiceIx, (s.readWord 0x2B).getLsbD v.val = s.voices[v].cfg.enabled)
    ∧ (s.readWord 0x2B).getLsbD 8 = s.bm.mute ∧ (s.readWord 0x2B).getLsbD 9 = s.sc.wakeOnVoice
    ∧ (s.readWord 0x2B).toNat < 1024
    ∧ ∀ a : BitVec 6, a ∈ ([0x04, 0x3C, 0x3D, 0x3E, 0x3F] : List (BitVec 6)) → s.readWord a = 0) ∧
  (∀ s : State, s.sc.resetHeld = false →
    exec (.attn .whole) s = .next { s with sc := { s.sc with shiftOut := s.attnWord, causes := 0, capture := none } }
    ∧ exec (.attn .capture) s = .next
        { s with sc := { s.sc with shiftOut := s.attnWord, capture := some (.attn s.sc.causes) } }
    ∧ (∀ k : BitVec 7, s.sc.capture = some (.attn k) →
        exec (.attn .complete) s = .next { s with sc := { s.sc with causes := s.sc.causes &&& ~~~k, capture := none } })
    ∧ (∀ (c : Cause) (k : BitVec 7) (t : State), s.sc.capture = some (.attn k) →
        exec (.attn .complete) (s.raise c) = .next t → t.sc.causes.getLsbD c.index = true)
    ∧ (∀ n, mostUrgent s.sc.causes = n + 1 ↔
        n < 7 ∧ s.sc.causes.getLsbD n = true ∧ ∀ i, i < n → s.sc.causes.getLsbD i = false)
    ∧ (mostUrgent s.sc.causes = 0 ↔ s.sc.causes = 0)) ∧
  (∀ s : State, s.sc.resetHeld = false →
    exec (.context .whole) s = .next
        { s with cu := { s.cu with changed := false }, sc := { s.sc with shiftOut := s.contextWord, capture := none } }
    ∧ exec (.context .capture) s = .next
        { s with sc := { s.sc with shiftOut := s.contextWord, capture := some (.context true) } }
    ∧ (∀ k : Bool, s.sc.capture = some (.context k) →
        exec (.context .complete) s = .next
          { s with cu := { s.cu with changed := s.cu.changed && !k }, sc := { s.sc with capture := none } })
    ∧ (∀ (k : Bool) (key : Key) (mode : KeyMode) (openD : Bool) (t : State), s.sc.capture = some (.context k) →
        key ≠ s.cu.key ∨ mode ≠ s.cu.mode →
        exec (.context .complete) (s.setContext key mode openD) = .next t → t.cu.changed = true))

/-- R159, R174, R24, R36, R52 to R54, R79, R83, R149: a write of a setup word in SETUP, or of a gain word in SETUP,
LIVE or STANDBY, stores each field held within its range and changes nothing else but to end a read in progress. That
COLLIDE and POLICY are one bit wide is read from 11.4 (log 25). 11.4, R174: each of these words, and KEYCFG, reads back as it is
held, with GLIDE divided by 5, RELEASE less 1 and 0 where no field stands. -/
def Obligations.WordWritesStoreClamped : Prop :=
  (∀ s : State, s.settingsOk →
    (s.readWord 0x0C).toInt = s.cfg.gate
    ∧ (s.readWord 0x0D).toNat = s.cfg.voicedThreshold + 256 * s.cfg.holdLimit
    ∧ (s.readWord 0x0E).toNat = s.cfg.snap ∧ (s.readWord 0x0F).toNat = s.cfg.settle
    ∧ (s.readWord 0x10).toNat = s.cfg.refresh
    ∧ (s.readWord 0x11).toNat
      = s.cfg.keycfg.key.pc.val
        + 16 * (match s.cfg.keycfg.key.kind with
          | .major => 0
          | .minor => 1
          | .harmonic => 2
          | .mixolydian => 3)
        + 64 * s.cfg.keycfg.pinned.toNat
    ∧ (s.readWord 0x12).toNat = s.cfg.collideClass.toNat
    ∧ (∀ i : Fin 4, ((s.readWord (BitVec.ofNat 6 (0x13 + i.val))).extractLsb' 0 5).toInt = s.cfg.rules[i].primary
        ∧ ((s.readWord (BitVec.ofNat 6 (0x13 + i.val))).extractLsb' 5 5).toInt = s.cfg.rules[i].alternate
        ∧ (s.readWord (BitVec.ofNat 6 (0x13 + i.val))).toNat / 1024 = s.cfg.rules[i].double.toNat)
    ∧ (∀ i : Fin 4, (s.readWord (BitVec.ofNat 6 (0x17 + i.val))).toNat
        = s.cfg.rules[i].follow + 256 * (s.cfg.rules[i].glide / 5))
    ∧ (∀ v : VoiceIx, (s.readWord (BitVec.ofNat 6 (0x1B + v.val))).toNat
        = s.voices[v].cfg.laneLow + 256 * s.voices[v].cfg.laneSpan)
    ∧ (∀ v : VoiceIx, (s.readWord (BitVec.ofNat 6 (0x23 + v.val))).toNat
        = s.voices[v].cfg.rule.val + 4 * s.voices[v].cfg.bus.val + 16 * s.voices[v].cfg.fadeOnLoss.toNat
          + 32 * s.voices[v].cfg.attack + 1024 * (s.voices[v].cfg.release - 1))
    ∧ ∀ v : VoiceIx, (s.readWord (BitVec.ofNat 6 (0x30 + v.val))).toNat = s.voices[v].cfg.gain) ∧
  ∀ (data : Word16) (s : State), s.sc.resetHeld = false →
    (s.sc.part = .setup →
      exec (.writeWord 0x0C data) s = .next
          { s with cfg := { s.cfg with gate := max (-96) (min 0 data.toInt) }, sc := { s.sc with capture := none } }
      ∧ exec (.writeWord 0x0D data) s = .next
          { s with
            cfg := { s.cfg with voicedThreshold := data.toNat % 256, holdLimit := data.toNat / 256 }
            sc := { s.sc with capture := none } }
      ∧ exec (.writeWord 0x0E data) s = .next
          { s with cfg := { s.cfg with snap := max 50 (min 90 (data.toNat % 256)) }, sc := { s.sc with capture := none } }
      ∧ exec (.writeWord 0x0F data) s = .next
          { s with cfg := { s.cfg with settle := max 2 (min 32 (data.toNat % 256)) }, sc := { s.sc with capture := none } }
      ∧ exec (.writeWord 0x10 data) s = .next
          { s with cfg := { s.cfg with refresh := max 16 (min 64 (data.toNat % 256)) }, sc := { s.sc with capture := none } }
      ∧ exec (.writeWord 0x12 data) s = .next
          { s with cfg := { s.cfg with collideClass := data.getLsbD 0 }, sc := { s.sc with capture := none } }
      ∧ (∀ i : Fin 4, exec (.writeWord (BitVec.ofNat 6 (0x13 + i.val)) data) s = .next
          { s with
            cfg := { s.cfg with
              rules := s.cfg.rules.set i { s.cfg.rules[i] with
                primary := max (-14) (min 14 (data.extractLsb' 0 5).toInt)
                alternate := max (-14) (min 14 (data.extractLsb' 5 5).toInt)
                double := data.getLsbD 10 } }
            sc := { s.sc with capture := none } })
      ∧ (∀ i : Fin 4, exec (.writeWord (BitVec.ofNat 6 (0x17 + i.val)) data) s = .next
          { s with
            cfg := { s.cfg with
              rules := s.cfg.rules.set i { s.cfg.rules[i] with
                follow := min 100 (data.toNat % 128), glide := 5 * min 240 (data.toNat / 256) } }
            sc := { s.sc with capture := none } })
      ∧ (∀ v : VoiceIx, exec (.writeWord (BitVec.ofNat 6 (0x1B + v.val)) data) s = .next
          { s with
            voices := s.voices.set v { s.voices[v] with
              cfg := { s.voices[v].cfg with
                laneLow := max 28 (min 96 (data.toNat % 256)), laneSpan := max 12 (min 36 (data.toNat / 256 % 64)) } }
            sc := { s.sc with capture := none } })
      ∧ (∀ v : VoiceIx, exec (.writeWord (BitVec.ofNat 6 (0x23 + v.val)) data) s = .next
          { s with
            voices := s.voices.set v { s.voices[v] with
              cfg := { s.voices[v].cfg with
                rule := ⟨data.toNat % 4, by omega⟩, bus := ⟨data.toNat / 4 % 4, by omega⟩
                fadeOnLoss := data.getLsbD 4, attack := max 1 (min 16 (data.toNat / 32 % 32))
                release := data.toNat / 1024 + 1 } }
            sc := { s.sc with capture := none } }))
    ∧ (s.sc.part = .setup ∨ s.sc.part = .live ∨ s.sc.part = .standby →
      (∀ b : BusIx, exec (.writeWord (BitVec.ofNat 6 (0x2C + b.val)) data) s = .next
          { s with
            bm := { s.bm with buses := s.bm.buses.set b { s.bm.buses[b] with gain := min 152 (data.toNat % 256) } }
            sc := { s.sc with capture := none } })
      ∧ (∀ v : VoiceIx, exec (.writeWord (BitVec.ofNat 6 (0x30 + v.val)) data) s = .next
          { s with
            voices := s.voices.set v { s.voices[v] with
              cfg := { s.voices[v].cfg with gain := min 152 (data.toNat % 256) } }
            sc := { s.sc with capture := none } }))

/-! ## Ensemble link -/

/-- R104, R105, R107, R111: an offer outside ACTIVE and STUCK is discarded; one of the class of a queued entry takes
its place, a HELLO keeping either's fresh flag; one that finds room goes to the newest place; both set the quiet
count to 0. With 8 entries and none of its class, it is discarded and counted when no entry's kind ranks below its
own. An entry that outranks takes the place of the newest of the lowest kind, and that the quiet count is 0 after it
is a deduction (log 19). Two entries are of a class when both are a CLAIM or DROP of one voice, or both a LEAD, a KEY or a HELLO,
and the kinds rank in that order: DROP, CLAIM, LEAD, KEY, HELLO. -/
def Obligations.QueueTakesOffers : Prop :=
  (∀ a b : Entry, a.sameClass b = true ↔
    (∃ v : VoiceIx, (a = .drop v ∨ ∃ firm rule note, a = .claim v firm rule note)
      ∧ (b = .drop v ∨ ∃ firm rule note, b = .claim v firm rule note))
    ∨ (a = .lead ∧ b = .lead) ∨ (a = .key ∧ b = .key) ∨ ∃ f g, a = .hello f ∧ b = .hello g) ∧
  (∀ (v : VoiceIx) (firm fresh : Bool) (rule : Fin 4) (note : Nat), (Entry.drop v).rank = 0
    ∧ (Entry.claim v firm rule note).rank = 1 ∧ Entry.lead.rank = 2 ∧ Entry.key.rank = 3 ∧ (Entry.hello fresh).rank = 4) ∧
  ∀ (l : LinkController) (e : Entry),
    (l.state ≠ .active → l.state ≠ .stuck → l.offer e = l)
    ∧ (l.state = .active ∨ l.state = .stuck →
      (∀ (i : Nat) (old : Entry), l.queue[i]? = some old → old.sameClass e = true →
          (∀ j other, j < i → l.queue[j]? = some other → other.sameClass e = false) →
          (l.offer e).queue = l.queue.set i (match old, e with
              | .hello f, .hello g => .hello (f || g)
              | _, _ => e)
            ∧ (l.offer e).quietCount = 0 ∧ (l.offer e).queueDrops = l.queueDrops)
      ∧ ((∀ old ∈ l.queue, old.sameClass e = false) → l.queue.length < 8 →
          l.offer e = { l with queue := l.queue ++ [e], quietCount := 0 })
      ∧ ((∀ old ∈ l.queue, old.sameClass e = false) → 8 ≤ l.queue.length → (∀ old ∈ l.queue, old.rank ≤ e.rank) →
          l.offer e = { l with queueDrops := min 255 (l.queueDrops + 1) })
      ∧ (∀ (older newer : List Entry) (x : Entry), (∀ old ∈ l.queue, old.sameClass e = false) → l.queue.length = 8 →
          l.queue = older ++ x :: newer → e.rank < x.rank → (∀ old ∈ older, old.rank ≤ x.rank) →
          (∀ old ∈ newer, old.rank < x.rank) →
          (l.offer e).queue = older ++ newer ++ [e] ∧ (l.offer e).queueDrops = min 255 (l.queueDrops + 1)
            ∧ (l.offer e).quietCount = 0))

/-- R96, R106, R94: a start takes the oldest entry of the highest-ranked kind from the queue into the slot and builds its
frame; every other entry keeps its place. R92: the receiver stands at the idle pair and follows it from then on. -/
def Obligations.StartFrameServesHighestOldest : Prop :=
  ∀ s : State, s.sc.resetHeld = false → s.link.state = .active → s.link.queue ≠ [] → s.link.slot = none →
    s.link.receiver.isTaking = false →
    ∃ (older newer : List Entry) (e : Entry), s.link.queue = older ++ e :: newer
      ∧ (∀ x ∈ older, e.rank < x.rank) ∧ (∀ x ∈ newer, e.rank ≤ x.rank)
      ∧ exec .startFrame s = .next
        { s with
          link := { s.link with
            queue := older ++ newer
            slot := some { entry := e, place := older.length, frame := buildFrame s e }
            receiver := .ready } }

/-- R97: of two arbitration values the station driving the greater loses, and no station loses to its own value. A station that
starts a frame and loses has its queue back as it stood before the start, its slot empty, and takes the winning frame. That the
quiet count stands at a lost arbitration is a deduction (log 18). -/
def Obligations.ArbitrationLossRestoresQueue : Prop :=
  (∀ own winner : Byte, losesArbitration own winner = decide (winner < own)) ∧
  (∀ (winner : Byte) (s t : State), s.sc.resetHeld = false → s.link.state = .active → s.link.queue ≠ [] →
    s.link.slot = none → s.link.receiver.isTaking = false → s.queueOk → exec .startFrame s = .next t →
    (∀ x, t.link.slot = some x → winner < x.frame.b0) →
    exec (.lostArbitration winner) t = .next
      { s with link := { s.link with slot := none, receiver := .taking, rxBytes := [winner] } })

/-- R97, R98, R105, R107: a frame abandoned on an echo mismatch and a frame sent both empty the slot and discard the entry;
only the mismatch counts, in ECHO; the receiver of a transmitting station only follows the pair, and the wait for idle after
either end counts the recessive bits read last, which at a start bit read recessive make the pair idle still (log 27). The
entry of a lost arbitration yields to one of its class queued meanwhile (a HELLO leaving it its fresh flag), and is discarded
and counted when the queue has filled with entries of no lower kind; where one of a lower kind stands in the full queue, the
newest of the lowest kind goes instead, which is counted, and the entry is back at its place in the age order. That the quiet
count stands is a deduction (log 18). -/
def Obligations.FrameEndsEmptySlot : Prop :=
  (∀ (x : TxSlot) (s : State), s.sc.resetHeld = false → s.link.slot = some x →
    exec .echoMismatch s = .next
      { s with
        link := { s.link with
          slot := none
          receiver := (match s.link.receiver with
            | .waitIdle n => if n < 12 then .waitIdle n else .ready
            | _ => .waitIdle)
          echo := min 255 (s.link.echo + 1) } }
    ∧ (∀ (n : Nat) (bits : List Bool), s.sc.part ≠ .init → s.link.state ≠ .solo → s.link.receiver = .waitIdle n →
      exec (.receiveFrame (.levels bits)) s = .next
        { s with link := { s.link with receiver := .waitIdle (recessiveRun (List.replicate n true ++ bits)) } })
    ∧ exec .frameSent s = .next
      { s with link := { s.link with slot := none, receiver := .waitIdle (recessiveRun x.frame.levels) } }) ∧
  (∀ (winner : Byte) (x : TxSlot) (s : State), s.sc.resetHeld = false → s.link.slot = some x →
    winner < x.frame.b0 →
    ((∀ old ∈ s.link.queue, old.sameClass x.entry = false) → s.link.queue.length < 8 →
        exec (.lostArbitration winner) s = .next
          { s with
            link := { s.link with
              slot := none, receiver := .taking, rxBytes := [winner]
              queue := s.link.queue.insertIdx x.place x.entry } })
    ∧ (∀ (i : Nat) (standing : Entry), s.link.queue[i]? = some standing → standing.sameClass x.entry = true →
        (∀ j other, j < i → s.link.queue[j]? = some other → other.sameClass x.entry = false) →
        exec (.lostArbitration winner) s = .next
          { s with
            link := { s.link with
              slot := none, receiver := .taking, rxBytes := [winner]
              queue := s.link.queue.set i (match standing, x.entry with
                | .hello f, .hello g => .hello (f || g)
                | _, _ => standing) } })
    ∧ ((∀ old ∈ s.link.queue, old.sameClass x.entry = false) → 8 ≤ s.link.queue.length →
        (∀ old ∈ s.link.queue, old.rank ≤ x.entry.rank) →
        exec (.lostArbitration winner) s = .next
          { s with
            link := { s.link with
              slot := none, receiver := .taking, rxBytes := [winner], queueDrops := min 255 (s.link.queueDrops + 1) } })
    ∧ (∀ (older newer : List Entry) (y : Entry), (∀ old ∈ s.link.queue, old.sameClass x.entry = false) →
        s.link.queue.length = 8 → s.link.queue = older ++ y :: newer → x.entry.rank < y.rank →
        (∀ old ∈ older, old.rank ≤ y.rank) → (∀ old ∈ newer, old.rank < y.rank) →
        exec (.lostArbitration winner) s = .next
          { s with
            link := { s.link with
              slot := none, receiver := .taking, rxBytes := [winner], queueDrops := min 255 (s.link.queueDrops + 1)
              queue := (older ++ newer).insertIdx (if older.length < x.place then x.place - 1 else x.place) x.entry } }))

/-- R100, R95, R101: a short frame, a framing error and a failing CRC are discarded and counted; kinds 5 to 7 are discarded;
a frame of kind 0 to 4 with the own number mutes a link in LISTEN, ACTIVE or STUCK, empties its queue and raises LINK, and
does nothing to a muted one. R92: a short frame ends with the pair idle; after any other end the receiver waits for idle, the
recessive bits that end a complete frame counted; that an end named as a whole is taken at any receiver, and that those bits
count, is the model's (log 27). -/
def Obligations.ReceiverDiscardsAndFindsDuplicates : Prop :=
  ∀ (f : LinkFrame) (s : State), s.sc.resetHeld = false → s.sc.part ≠ .init → s.link.state ≠ .solo → s.link.slot = none →
    (∀ (rx : Reception) (after : Receiver),
      (rx = .short ∧ after = .ready) ∨ (rx = .framingError ∧ after = .waitIdle)
        ∨ (rx = .complete f ∧ f.b5 ≠ crcOf f.b0 f.b1 f.b2 f.b3 f.b4 ∧ after = .waitIdle (recessiveRun f.levels)) →
      exec (.receiveFrame rx) s = .next
        { s with link := { s.link with receiver := after, rxBytes := [], rxCrc := min 255 (s.link.rxCrc + 1) } })
    ∧ (f.b5 = crcOf f.b0 f.b1 f.b2 f.b3 f.b4 → 5 ≤ f.b0.toNat / 8 → f.b0.toNat / 8 ≤ 7 →
      exec (.receiveFrame (.complete f)) s = .next
        { s with link := { s.link with receiver := .waitIdle (recessiveRun f.levels), rxBytes := [] } })
    ∧ (f.b5 = crcOf f.b0 f.b1 f.b2 f.b3 f.b4 → f.b0.toNat / 8 ≤ 4 → f.b0.toNat % 8 = s.sc.station.val →
      (s.link.state = .muted →
        exec (.receiveFrame (.complete f)) s = .next
          { s with link := { s.link with receiver := .waitIdle (recessiveRun f.levels), rxBytes := [] } })
      ∧ (s.link.state ≠ .muted →
        exec (.receiveFrame (.complete f)) s = .next
          { s with
            sc := { s.sc with causes := s.sc.causes ||| 0x01, capture := s.sc.capture.map (Capture.keepRaised .link) }
            link := { s.link with
              receiver := .waitIdle (recessiveRun f.levels), rxBytes := [], state := .muted, queue := []
              stuckMonitor := .off } }))

/-- R115 to R121, R172: what a good frame of each kind leaves of a record, from the bytes of the frame. -/
def Obligations.GoodFrameUpdatesRecord : Prop :=
  ∀ (f : LinkFrame) (r : PeerRecord),
    PeerRecord.empty
      = { silence := 0, lead := none, keyReport := none, claims := Vector.replicate 8 none, resting := false }
    ∧ (f.kind = 0 → r.apply f = { r with
        claims := Vector.ofFn fun v : VoiceIx => if v.val = f.b1.toNat % 16 then none else r.claims[v] })
    ∧ (f.kind = 1 → r.apply f = { r with
        claims := Vector.ofFn fun v : VoiceIx =>
          if v.val = f.b1.toNat % 16 then some { note := f.b2.toNat, firm := f.b1.getLsbD 4, age := 0 }
          else r.claims[v] })
    ∧ (f.kind = 2 → r.apply f = { r with
        lead := some
          { voiced := f.b1.getLsbD 7
            held := if f.b1.toNat % 128 = 0 then none else some (f.b1.toNat % 128)
            confidence := f.b4.toNat, age := 0 } })
    ∧ (f.kind = 3 → r.apply f = { r with
        keyReport := some { pc := f.b1.toNat % 16, kind := f.b1.toNat / 16 % 8, pinned := f.b1.getLsbD 7 } })
    ∧ (f.kind = 4 → f.b1.getLsbD 0 = false → r.apply f = { r with resting := f.b1.getLsbD 1 })
    ∧ (f.kind = 4 → f.b1.getLsbD 0 = true → r.apply f = { r with
        resting := f.b1.getLsbD 1, lead := none, claims := Vector.replicate 8 none })

/-- R100, R115, R116, R120, R127: a good frame of a kind but KEY updates the sender's record, created first (which raises PEER)
when there was none, with silence 0; a KEY does the same and then acts on the Context Unit. Nothing else changes. R91, R92:
a frame stands on the pair as 60 levels, each byte a dominant start bit, its eight bits most significant first and a
recessive stop bit; read level by level after the 12 recessive ones of an idle pair they are that complete frame, and
without idle before it a receiver that waits for idle takes nothing of it. Levels may come in parts; in INIT and in a
station that sends, a receiver only counts the recessive bits in a row. A dominant level starts
a frame at a ready receiver and begins the wait for idle again at a waiting one; in place of a stop bit it is a framing
error; and the 12th recessive bit in a row of a gap makes the frame short (log 27). -/
def Obligations.GoodFrameReachesPeerTable : Prop :=
  (∀ (f : LinkFrame) (s : State), s.sc.resetHeld = false → s.sc.part ≠ .init → s.link.state ≠ .solo → s.link.slot = none →
    f.b5 = crcOf f.b0 f.b1 f.b2 f.b3 f.b4 → f.kind ≤ 4 → f.station ≠ s.sc.station →
    (∀ r, s.peers[f.station] = some r → f.kind ≠ 3 →
      exec (.receiveFrame (.complete f)) s = .next
        { s with
          link := { s.link with receiver := .waitIdle (recessiveRun f.levels), rxBytes := [] }
          peers := s.peers.set f.station (some { r.apply f with silence := 0 }) })
    ∧ (s.peers[f.station] = none → f.kind ≠ 3 →
      exec (.receiveFrame (.complete f)) s = .next
        { s with
          sc := { s.sc with causes := s.sc.causes ||| 0x08, capture := s.sc.capture.map (Capture.keepRaised .peer) }
          link := { s.link with receiver := .waitIdle (recessiveRun f.levels), rxBytes := [] }
          peers := s.peers.set f.station (some (PeerRecord.empty.apply f)) })
    ∧ (∀ r, s.peers[f.station] = some r → f.kind = 3 →
      exec (.receiveFrame (.complete f)) s = .next
        (State.keyReceived f.station { pc := f.b1.toNat % 16, kind := f.b1.toNat / 16 % 8, pinned := f.b1.getLsbD 7 }
          { s with
            link := { s.link with receiver := .waitIdle (recessiveRun f.levels), rxBytes := [] }
            peers := s.peers.set f.station (some { r.apply f with silence := 0 }) }))
    ∧ (s.peers[f.station] = none → f.kind = 3 →
      exec (.receiveFrame (.complete f)) s = .next
        (State.keyReceived f.station { pc := f.b1.toNat % 16, kind := f.b1.toNat / 16 % 8, pinned := f.b1.getLsbD 7 }
          { s with
            sc := { s.sc with causes := s.sc.causes ||| 0x08, capture := s.sc.capture.map (Capture.keepRaised .peer) }
            link := { s.link with receiver := .waitIdle (recessiveRun f.levels), rxBytes := [] }
            peers := s.peers.set f.station (some (PeerRecord.empty.apply f)) }))) ∧
  (∀ (f : LinkFrame) (i : Fin 6) (j : Fin 8), f.levels.length = 60
    ∧ f.levels[10 * i.val]? = some false ∧ f.levels[10 * i.val + 9]? = some true
    ∧ f.levels[10 * i.val + 1 + j.val]? = ([f.b0, f.b1, f.b2, f.b3, f.b4, f.b5][i]?).map (·.getLsbD (7 - j.val))) ∧
  (∀ (before : List Bool) (n : Nat), recessiveRun (List.replicate n true) = n
    ∧ recessiveRun (before ++ false :: List.replicate n true) = n) ∧
  (∀ (a b : List Bool) (s t : State), s.sc.resetHeld = false → exec (.receiveFrame (.levels a)) s = .next t →
    exec (.receiveFrame (.levels (a ++ b))) s = exec (.receiveFrame (.levels b)) t) ∧
  (∀ (level : Bool) (s : State), s.sc.resetHeld = false → s.link.state ≠ .solo → s.sc.part = .init ∨ s.link.slot ≠ none →
    (∀ n, s.link.receiver = .waitIdle n → exec (.receiveFrame (.levels [level])) s
      = .next { s with link := { s.link with receiver := .waitIdle (if level then n + 1 else 0) } })
    ∧ (s.link.receiver = .ready → exec (.receiveFrame (.levels [level])) s
      = .next { s with link := { s.link with receiver := .waitIdle (if level then 13 else 0) } })) ∧
  ∀ (f : LinkFrame) (s : State), s.sc.resetHeld = false → s.sc.part ≠ .init → s.link.state ≠ .solo → s.link.slot = none →
    (s.link.receiver = .ready ∨ (∃ n, s.link.receiver = .waitIdle n) →
      exec (.receiveFrame (.levels (List.replicate 12 true ++ f.levels))) s = exec (.receiveFrame (.complete f)) s)
    ∧ (s.link.receiver = .waitIdle →
      ∃ n, exec (.receiveFrame (.levels f.levels)) s = .next { s with link := { s.link with receiver := .waitIdle n } })
    ∧ (s.link.receiver = .ready →
      exec (.receiveFrame (.levels [true])) s = .next s
      ∧ exec (.receiveFrame (.levels [false])) s
        = .next { s with link := { s.link with receiver := .taking [false], rxBytes := [] } })
    ∧ (∀ n, s.link.receiver = .waitIdle n →
      exec (.receiveFrame (.levels [true])) s
        = .next { s with link := { s.link with receiver := if n + 1 < 12 then .waitIdle (n + 1) else .ready } }
      ∧ exec (.receiveFrame (.levels [false])) s = .next { s with link := { s.link with receiver := .waitIdle } })
    ∧ (s.link.receiver = .taking →
      exec (.receiveFrame (.levels [false])) s = exec (.receiveFrame .framingError) s)
    ∧ (∀ (k : Nat) (last : Byte), s.link.receiver = .taking (List.replicate (k + 1) true) →
      s.link.rxBytes.getLast? = some last →
      (recessiveRun (byteLevels last) + k + 1 < 12 →
        exec (.receiveFrame (.levels [true])) s
          = .next { s with link := { s.link with receiver := .taking (List.replicate (k + 2) true) } })
      ∧ (12 ≤ recessiveRun (byteLevels last) + k + 1 →
        exec (.receiveFrame (.levels [true])) s = exec (.receiveFrame .short) s))

/-- R48, R49: what a KEY frame does to the key and the mode: nothing out of range, nothing in PINNED-LOCAL; pinned, it is
adopted in AUTO and PINNED-PEER and its sender becomes the pinning station; not pinned, it releases the pin of its sender alone. -/
def Obligations.KeyFrameAdoptsOrReleasesPin : Prop :=
  ∀ (p : Station) (k : KeyReport) (s : State),
    (11 < k.pc ∨ 3 < k.kind → s.keyReceived p k = s)
    ∧ (s.cu.mode = .pinnedLocal → s.keyReceived p k = s)
    ∧ (∀ h : k.pc < 12, k.kind ≤ 3 → k.pinned = true → s.cu.mode ≠ .pinnedLocal →
        s.keyReceived p k
          = s.setContext { pc := ⟨k.pc, h⟩, kind := ScaleKind.ofCode k.kind } (.pinnedPeer p) false)
    ∧ (k.pc ≤ 11 → k.kind ≤ 3 → k.pinned = false → s.cu.mode = .pinnedPeer p →
        s.keyReceived p k = s.setContext s.cu.key .auto true)
    ∧ (k.pinned = false → s.cu.mode ≠ .pinnedPeer p → s.keyReceived p k = s)

/-- R122, R123, R127, R50: the ageing of the whole table at a hop: each record's claims and lead grow one hop older, claims
past 3 × REFRESH go, and a record whose silence would exceed the record limit goes, raising PEER, and releasing the pin when it
is the pinning station's. -/
def Obligations.AgeingOfPeerTable : Prop :=
  ∀ s : State,
    (∀ p : Station, s.peers[p] = none → s.ageing.peers[p] = none)
    ∧ (∀ (p : Station) (r : PeerRecord), s.peers[p] = some r → min (4 * s.cfg.refresh) 255 < r.silence + 1 →
        s.ageing.peers[p] = none)
    ∧ (∀ (p : Station) (r : PeerRecord), s.peers[p] = some r → r.silence + 1 ≤ min (4 * s.cfg.refresh) 255 →
        ∃ r', s.ageing.peers[p] = some r' ∧ r'.silence = r.silence + 1 ∧ r'.keyReport = r.keyReport
          ∧ r'.resting = r.resting
          ∧ r'.lead = r.lead.map (fun l => { l with age := min 255 (l.age + 1) })
          ∧ ∀ v : VoiceIx, r'.claims[v] = (r.claims[v].bind fun c =>
              if 3 * s.cfg.refresh < min 255 (c.age + 1) then none else some { c with age := min 255 (c.age + 1) }))
    ∧ (s.ageing.sc.causes.getLsbD 3
        = (s.sc.causes.getLsbD 3 || (List.finRange 8).any fun p =>
            match s.peers[p] with
            | some r => decide (min (4 * s.cfg.refresh) 255 < r.silence + 1)
            | none => false))
    ∧ (∀ (p : Station) (r : PeerRecord), s.cu.mode = .pinnedPeer p → s.peers[p] = some r →
        min (4 * s.cfg.refresh) 255 < r.silence + 1 →
        s.ageing.cu.mode = .auto ∧ s.ageing.cu.key = s.cu.key ∧ s.ageing.cu.openDecision = true)

/-- R122, R123, R127, R50: a claim past 3 × REFRESH is removed from its record alone; a record past the record limit
is removed whole, PEER is raised, and the pin it held is released. That the event is a command of its own, which acts
when its condition stands, is the model's (log 3). -/
def Obligations.AgeLimitsRemove : Prop :=
  ∀ (p : Station) (r : PeerRecord) (s : State), s.sc.resetHeld = false → s.peers[p] = some r →
    (∀ (v : VoiceIx) (c : PeerClaim), r.claims[v] = some c → 3 * s.cfg.refresh < c.age →
      exec (.claimAgeLimit p v) s = .next
        { s with peers := s.peers.set p (some { r with claims := r.claims.set v none }) })
    ∧ (min (4 * s.cfg.refresh) 255 < r.silence → s.cu.mode ≠ .pinnedPeer p →
      exec (.recordLimit p) s = .next
        { s with
          peers := s.peers.set p none
          sc := { s.sc with causes := s.sc.causes ||| 0x08, capture := s.sc.capture.map (Capture.keepRaised .peer) } })
    ∧ (min (4 * s.cfg.refresh) 255 < r.silence → s.cu.mode = .pinnedPeer p →
      exec (.recordLimit p) s = .next
        (State.setContext s.cu.key .auto true
          { s with
            peers := s.peers.set p none
            sc := { s.sc with
              causes := s.sc.causes ||| 0x08, capture := s.sc.capture.map (Capture.keepRaised .peer) } }))

/-- R103: a dominant run past 1 ms takes a link in ACTIVE with an empty slot to STUCK and raises LINK; a recessive
level of 1 ms takes it back to ACTIVE and raises nothing; the queue stands through both. That STUCK needs an empty
slot is R103's own remark, taken as a condition (log 16). -/
def Obligations.StuckAndReturnToActive : Prop :=
  ∀ s : State, s.sc.resetHeld = false →
    (s.link.state = .active → s.link.slot = none →
      exec .stuck s = .next
        { s with
          sc := { s.sc with causes := s.sc.causes ||| 0x01, capture := s.sc.capture.map (Capture.keepRaised .link) }
          link := { s.link with state := .stuck, stuckMonitor := .recessive } })
    ∧ (s.link.state = .stuck →
      exec .returnToActive s = .next
        { s with link := { s.link with state := .active, stuckMonitor := .dominant } })

/-- R93 to R95, R172: the CRC takes the 40 bits of bytes 0 to 4, each byte's top bit first, through a register that starts at
0xFF: shifted at each bit, and combined with 0x07 where its top bit differs from the incoming one. A frame a station builds
passes the CRC at every receiver, and its bytes give back the station, the kind and every field of the entry or of the state it
was built from, for every value the fields can carry. -/
def Obligations.BuiltFrameReadsBack : Prop :=
  (∀ b0 b1 b2 b3 b4 : Byte, crcOf b0 b1 b2 b3 b4
    = ([b0, b1, b2, b3, b4].flatMap fun b => (List.range 8).reverse.map b.getLsbD).foldl
        (fun (r : Byte) bit => if r.getLsbD 7 = bit then r <<< 1 else (r <<< 1) ^^^ 0x07) 0xFF) ∧
  ∀ (s : State) (e : Entry), (∀ n, s.cu.held = some n → 1 ≤ n ∧ n ≤ 127) → s.pt.record.confidence ≤ 255 →
    (∀ v firm rule note, e = .claim v firm rule note → note ≤ 255) →
    (buildFrame s e).b5
        = crcOf (buildFrame s e).b0 (buildFrame s e).b1 (buildFrame s e).b2 (buildFrame s e).b3 (buildFrame s e).b4
    ∧ (buildFrame s e).station = s.sc.station
    ∧ (buildFrame s e).kind = e.rank
    ∧ (match e with
      | .drop v => (buildFrame s e).voice = v.val
      | .claim v firm rule note =>
        (buildFrame s e).voice = v.val ∧ (buildFrame s e).firm = firm ∧ (buildFrame s e).note = note
          ∧ (buildFrame s e).b1.toNat / 32 = rule.val
      | .lead =>
        (buildFrame s e).leadPart
          = { voiced := s.pt.record.voiced, held := s.cu.held, confidence := s.pt.record.confidence, age := 0 }
        ∧ (0 ≤ s.pt.record.cents → s.pt.record.cents ≤ 65535 →
          ((256 * (buildFrame s e).b2.toNat + (buildFrame s e).b3.toNat : Nat) : Int) = s.pt.record.cents)
      | .key =>
        (buildFrame s e).keyPart
          = { pc := s.cu.key.pc.val, kind := s.cu.key.kind.code, pinned := decide (s.cu.mode = .pinnedLocal) }
      | .hello fresh =>
        (buildFrame s e).fresh = fresh ∧ (buildFrame s e).restingBit = decide (s.sc.part = .standby))

/-! ## The whole machine -/

/-- Right after a reset of any kind, with any straps, every invariant below holds. -/
def Obligations.ResetMeetsInvariants : Prop :=
  ∀ (cause : StartCause) (straps : Straps) (q : List Instr),
    (State.atReset cause straps q).historyOk ∧ (State.atReset cause straps q).queueOk
    ∧ (State.atReset cause straps q).claimsOk ∧ (State.atReset cause straps q).claimsApart
    ∧ (State.atReset cause straps q).peersOk ∧ (State.atReset cause straps q).rangesOk
    ∧ (State.atReset cause straps q).settingsOk ∧ (State.atReset cause straps q).countsOk

/-- R14, R2: every step keeps the History Memory canonical and its numbering unbroken. -/
def Obligations.StepKeepsHistory : Prop :=
  ∀ s t : State, s.historyOk → step s = .next t → t.historyOk

/-- R104, R101, R102, R103: every step keeps the queue at most 8 long with no two entries of a class, empty outside ACTIVE and
STUCK, and a frame in the slot only in ACTIVE. -/
def Obligations.StepKeepsQueue : Prop :=
  ∀ s t : State, s.queueOk → step s = .next t → t.queueOk

/-- R72, R76, R135, R163: every step keeps each voice's claim in step with its state and its decided note, no voice sounding
outside LIVE, SETTLE in its range and a measurement in progress exactly in CALIBRATE. -/
def Obligations.StepKeepsClaims : Prop :=
  ∀ s t : State, s.claimsOk → step s = .next t → t.claimsOk

/-- R90: where claims are sound, every step keeps any two own claims apart unless the higher-indexed voice is doubled. -/
def Obligations.StepKeepsOwnClaimsApart : Prop :=
  ∀ s t : State, s.claimsOk → s.claimsApart → step s = .next t → t.claimsApart

/-- R114, R100, R101: every step keeps the Peer Table free of a record under the own number. -/
def Obligations.StepKeepsOwnRecordAbsent : Prop :=
  ∀ s t : State, s.peersOk → step s = .next t → t.peersOk

/-- R29, R33, R42, R41, R142, R144, R159, R174: every step keeps at most 24 marks, at most 4 grains and an envelope of at most
32767 a voice, weights of at most 65535 and a decision count of at most 15; and every setting within its range. R6, R8, R9, R23,
R37, R75, R77, R109 to R111, R113, R122, R123, R140, R142, R151: with the settings in range, it keeps the hop count at most
256, the hold count at most 8, the LEAD count at most 3, the KEY count at most 127, the quiet count and every refresh count at
most 63, the settle count of a soft claim at most 31 and of any at most 32, every error and event counter, peer age and silence at
most 255, and the offset, the levels and the confidence within their ranges. -/
def Obligations.StepKeepsRanges : Prop :=
  (∀ s t : State, s.rangesOk → step s = .next t → t.rangesOk) ∧
  (∀ s t : State, s.settingsOk → step s = .next t → t.settingsOk) ∧
  (∀ s t : State, s.settingsOk → s.countsOk → step s = .next t → t.countsOk)

/-- R161, R52 to R54: the setup words can change in SETUP alone, but for a reset, which sets them to their reset values. -/
def Obligations.SetupWordsChangeOnlyInSetup : Prop :=
  ∀ s t : State, s.sc.part ≠ .setup → step s = .next t →
    (t.cfg = s.cfg ∧ ∀ v : VoiceIx,
      t.voices[v].cfg = { s.voices[v].cfg with enabled := t.voices[v].cfg.enabled, gain := t.voices[v].cfg.gain })
    ∨ (t.sc.part = .init ∧ t.cfg = Setup.reset ∧ ∀ v : VoiceIx, t.voices[v].cfg = VoiceConfig.reset v)

/-- 10.2, R167: once LIVE has been entered the part stays in LIVE or STANDBY until a reset: a step that leaves it in any other
part state leaves it in INIT with every block at the values of a reset, the audio port's free timer
started unless a reset is held (log 13), and the frame being sent kept at a word reset (R155). -/
def Obligations.LiveIsLeftOnlyByReset : Prop :=
  ∀ s t : State, s.inp.measurement = none → s.sc.part = .live ∨ s.sc.part = .standby → step s = .next t →
    t.sc.part = .live ∨ t.sc.part = .standby
      ∨ (t.sc.part = .init ∧ t.inp = InputStage.reset ∧ t.hm = HistoryMemory.reset ∧ t.pt = PitchTracker.reset
        ∧ t.cu = ContextUnit.reset ∧ t.cfg = Setup.reset ∧ (∀ v : VoiceIx, t.voices[v] = Voice.reset v)
        ∧ t.link = LinkController.reset t.sc.solo ∧ (∀ p : Station, t.peers[p] = none) ∧ t.bm = BusMixer.reset
        ∧ t.sc.causes = 0 ∧ t.sc.mask = 0x40 ∧ t.sc.liveEntry = false ∧ t.sc.wakeOnVoice = false
        ∧ t.ap = { AudioPort.reset with freeTimer := !t.sc.resetHeld, sending := t.ap.sending }
        ∧ (t.ap.sending = none ∨ t.ap.sending = s.ap.sending)
        ∧ AudioPort.reset.syncPresent = false ∧ AudioPort.reset.monitorTimer = false ∧ AudioPort.reset.sampleCounter = 0
        ∧ AudioPort.reset.hopCount = 0 ∧ AudioPort.reset.slotOpen = false)

end
end

