-- ==== Sys2Proof/Laws/Arith.lean ====
section
/-! SUPPORT. How near the fixed-point arithmetic of `Arith` comes to the real values it stands for: the rounding, and the
cosine behind the Hann window (R141, log 9). -/

namespace Sys2Proof.Machine

open Finset

/-! ## Roundings -/

/-- A floor of a quotient lies within one of it. -/
theorem floor_near (a b : ℤ) (hb : 0 < b) : |((a / b : ℤ) : ℝ) - (a : ℝ) / b| ≤ 1 := by
  have hb' : (0 : ℝ) < b := by exact_mod_cast hb
  have h1 : (b : ℝ) * ((a / b : ℤ) : ℝ) + ((a % b : ℤ) : ℝ) = a := by exact_mod_cast Int.mul_ediv_add_emod a b
  have h2 : (0 : ℝ) ≤ ((a % b : ℤ) : ℝ) := by exact_mod_cast Int.emod_nonneg a hb.ne'
  have h3 : ((a % b : ℤ) : ℝ) ≤ b := by exact_mod_cast (Int.emod_lt_of_pos a hb).le
  have h4 : (a : ℝ) / b = ((a / b : ℤ) : ℝ) + ((a % b : ℤ) : ℝ) / b := by rw [← h1]; field_simp
  rw [h4, abs_le]
  have h5 : ((a % b : ℤ) : ℝ) / b ≤ 1 := by rw [div_le_one hb']; exact h3
  have h6 : 0 ≤ ((a % b : ℤ) : ℝ) / b := by positivity
  constructor <;> linarith

/-- Rounding halves up ends within a half of the exact quotient. -/
theorem roundHalfUp_near (n : ℤ) (d : ℕ) (hd : 0 < d) : |(roundHalfUp n d : ℝ) - (n : ℝ) / d| ≤ 1 / 2 := by
  have hd' : (0 : ℝ) < d := by exact_mod_cast hd
  have h1 : (2 * (d : ℤ)) * roundHalfUp n d + (2 * n + d) % (2 * d) = 2 * n + d := Int.mul_ediv_add_emod _ _
  have h2 := Int.emod_nonneg (2 * n + d) (show (2 * (d : ℤ)) ≠ 0 by omega)
  have h3 := Int.emod_lt_of_pos (2 * n + d) (show 0 < (2 * (d : ℤ)) by omega)
  have h4 : (2 * d : ℝ) * roundHalfUp n d ≤ 2 * n + d := by exact_mod_cast (by omega : (2 * (d : ℤ)) * roundHalfUp n d ≤ 2 * n + d)
  have h5 : (2 * n + d : ℝ) ≤ (2 * d : ℝ) * roundHalfUp n d + 2 * d := by exact_mod_cast (by omega : (2 * n + d : ℤ) ≤ (2 * (d : ℤ)) * roundHalfUp n d + 2 * d)
  have h6 : (n : ℝ) = n / d * d := by field_simp
  rw [abs_le]
  set q : ℝ := (n : ℝ) / d
  rw [h6] at h4 h5
  constructor <;> nlinarith

/-! ## The series of cos -/

/-- Term i of the series of cos, over x². -/
noncomputable def cosTerm (y : ℝ) (i : ℕ) : ℝ := (-1) ^ i * y ^ i / ((2 * i).factorial : ℝ)

/-- A term from the one before it. -/
theorem cosTerm_succ (y : ℝ) (i : ℕ) : cosTerm y (i + 1) = -(cosTerm y i * y) / ((2 * i + 1) * (2 * i + 2)) := by
  have h : (2 * (i + 1)).factorial = (2 * i + 2) * ((2 * i + 1) * (2 * i).factorial) := by
    rw [show 2 * (i + 1) = 2 * i + 1 + 1 by ring, Nat.factorial_succ, Nat.factorial_succ]
  have h0 : ((2 * i).factorial : ℝ) ≠ 0 := by exact_mod_cast (Nat.factorial_pos _).ne'
  unfold cosTerm
  rw [h]
  push_cast
  field_simp
  ring

/-- The scaled series stays near the real one: an error in the term it starts from at most doubles, with two more, at each
further term. -/
theorem cosSeries_near (x2 : ℤ) (h0 : 0 ≤ x2) (h4 : x2 ≤ 4 * 2 ^ 128) (n : ℕ) :
    ∀ (i : ℕ) (term : ℤ) (e : ℝ), 0 ≤ e → |(term : ℝ) - 2 ^ 128 * cosTerm (x2 / 2 ^ 128) i| ≤ e →
      |(cosSeries x2 n i term : ℝ) - 2 ^ 128 * ∑ m ∈ range n, cosTerm (x2 / 2 ^ 128) (i + m)| ≤ (e + 2) * (2 ^ n - 1) := by
  induction n with
  | zero => intro i term e he h; simp [cosSeries]
  | succ n ih =>
    intro i term e he h
    set y : ℝ := (x2 : ℝ) / 2 ^ 128 with hy
    have hy0 : 0 ≤ y := by have : (0 : ℝ) ≤ x2 := by exact_mod_cast h0
                           positivity
    have hy4 : y ≤ 4 := by
      rw [hy, div_le_iff₀ (by positivity)]
      exact_mod_cast h4
    set k : ℤ := (2 * i + 1) * (2 * i + 2) with hk
    have hk2 : (2 : ℤ) ≤ k := by nlinarith
    have hk2' : (2 : ℝ) ≤ k := by exact_mod_cast hk2
    have hkr : (k : ℝ) = (2 * i + 1) * (2 * i + 2) := by rw [hk]; push_cast; ring
    have hnext : |((-(term * x2 / 2 ^ 128) / k : ℤ) : ℝ) - 2 ^ 128 * cosTerm y (i + 1)| ≤ 2 * e + 2 := by
      have a1 := floor_near (-(term * x2 / 2 ^ 128)) k (by omega)
      have a2 := floor_near (term * x2) (2 ^ 128) (by positivity)
      have a3 : ((term * x2 : ℤ) : ℝ) / ((2 ^ 128 : ℤ) : ℝ) = term * y := by rw [hy]; push_cast; ring
      rw [a3] at a2
      rw [Int.cast_neg] at a1
      rw [cosTerm_succ, ← hkr]
      have a4 : |-((term * x2 / 2 ^ 128 : ℤ) : ℝ) / k - 2 ^ 128 * (-(cosTerm y i * y) / k)| ≤ (1 + e * y) / 2 := by
        have : -((term * x2 / 2 ^ 128 : ℤ) : ℝ) / k - 2 ^ 128 * (-(cosTerm y i * y) / k)
            = -((((term * x2 / 2 ^ 128 : ℤ) : ℝ) - term * y) + (term - 2 ^ 128 * cosTerm y i) * y) / k := by ring
        rw [this, abs_div, abs_neg, abs_of_pos (show (0 : ℝ) < k by linarith)]
        refine div_le_div₀ (by positivity) ?_ (by norm_num) hk2'
        refine (abs_add_le _ _).trans (add_le_add a2 ?_)
        rw [abs_mul, abs_of_nonneg hy0]
        exact mul_le_mul_of_nonneg_right h hy0
      have a5 := abs_sub_le (((-(term * x2 / 2 ^ 128) / k : ℤ) : ℝ)) (-((term * x2 / 2 ^ 128 : ℤ) : ℝ) / k) (2 ^ 128 * (-(cosTerm y i * y) / k))
      have a6 : e * y ≤ e * 4 := mul_le_mul_of_nonneg_left hy4 he
      linarith
    have hs := ih (i + 1) (-(term * x2 / 2 ^ 128) / k) (2 * e + 2) (by positivity) hnext
    rw [cosSeries, Finset.sum_range_succ', ← hk]
    have e1 : ∑ m ∈ range n, cosTerm y (i + (m + 1)) = ∑ m ∈ range n, cosTerm y (i + 1 + m) :=
      Finset.sum_congr rfl fun m _ => by rw [show i + (m + 1) = i + 1 + m by ring]
    rw [e1, show i + 0 = i from rfl]
    have : ((term + cosSeries x2 n (i + 1) (-(term * x2 / 2 ^ 128) / k) : ℤ) : ℝ)
        - 2 ^ 128 * (∑ m ∈ range n, cosTerm y (i + 1 + m) + cosTerm y i)
        = ((cosSeries x2 n (i + 1) (-(term * x2 / 2 ^ 128) / k) : ℤ) - 2 ^ 128 * ∑ m ∈ range n, cosTerm y (i + 1 + m))
          + (term - 2 ^ 128 * cosTerm y i) := by push_cast; ring
    rw [this]
    refine (abs_add_le _ _).trans ?_
    have hb : (e + 2) * ((2 : ℝ) ^ (n + 1) - 1) = e + (2 * e + 2 + 2) * (2 ^ n - 1) + 2 := by rw [pow_succ]; ring
    rw [hb]
    exact (add_le_add hs h).trans (by linarith)

/-- The first 2n terms of exp at ix have the first n terms of cos at x as their real part. -/
theorem exp_terms_re (x : ℝ) (n : ℕ) :
    (∑ m ∈ range (2 * n), ((x : ℂ) * Complex.I) ^ m / m.factorial).re = ∑ m ∈ range n, cosTerm (x ^ 2) m := by
  induction n with
  | zero => simp
  | succ n ih =>
    rw [show 2 * (n + 1) = 2 * n + 1 + 1 by ring, Finset.sum_range_succ, Finset.sum_range_succ, Finset.sum_range_succ,
      Complex.add_re, Complex.add_re, ih]
    have h1 : (((x : ℂ) * Complex.I) ^ (2 * n) / ((2 * n).factorial : ℂ)).re = cosTerm (x ^ 2) n := by
      rw [pow_mul, mul_pow, Complex.I_sq]
      have : ((x : ℂ) ^ 2 * -1) ^ n / ((2 * n).factorial : ℂ) = ((cosTerm (x ^ 2) n : ℝ) : ℂ) := by
        unfold cosTerm; push_cast; rw [mul_comm ((x : ℂ) ^ 2), mul_pow]
      rw [this, Complex.ofReal_re]
    have h2 : (((x : ℂ) * Complex.I) ^ (2 * n + 1) / ((2 * n + 1).factorial : ℂ)).re = 0 := by
      rw [pow_succ, pow_mul, mul_pow, Complex.I_sq]
      have : ((x : ℂ) ^ 2 * -1) ^ n * ((x : ℂ) * Complex.I) / ((2 * n + 1).factorial : ℂ)
          = (((x ^ 2 * -1) ^ n * x / ((2 * n + 1).factorial : ℝ) : ℝ) : ℂ) * Complex.I := by push_cast; ring
      rw [this, Complex.re_ofReal_mul, Complex.I_re, mul_zero]
    rw [h1, h2, add_zero]

/-- Twenty-six terms of the series come within 10^−20 of cos on 0 to 2. -/
theorem cosTerms_near (x : ℝ) (h0 : 0 ≤ x) (h2 : x ≤ 2) :
    |∑ m ∈ range 26, cosTerm (x ^ 2) m - Real.cos x| ≤ 1 / 10 ^ 20 := by
  have hx : ‖(x : ℂ) * Complex.I‖ = x := by simp [abs_of_nonneg h0]
  have hb := Complex.exp_bound' (x := (x : ℂ) * Complex.I) (n := 52) (by rw [hx]; push_cast; linarith)
  rw [hx] at hb
  have hre : (Complex.exp ((x : ℂ) * Complex.I)).re = Real.cos x := by
    rw [Complex.exp_mul_I, Complex.add_re, Complex.cos_ofReal_re, Complex.mul_re]
    simp [Complex.sin_ofReal_im]
  have h1 := (Complex.abs_re_le_norm _).trans hb
  rw [Complex.sub_re, hre, show 52 = 2 * 26 by rfl, exp_terms_re, abs_sub_comm] at h1
  refine h1.trans ?_
  have h3 : x ^ (2 * 26) ≤ 2 ^ (2 * 26) := pow_le_pow_left₀ h0 h2 _
  calc x ^ (2 * 26) / ((2 * 26 : ℕ).factorial : ℝ) * 2 ≤ 2 ^ (2 * 26) / ((2 * 26 : ℕ).factorial : ℝ) * 2 := by gcongr
    _ ≤ 1 / 10 ^ 20 := by norm_num [Nat.factorial]

/-- The scaled cosine of the Hann window comes within 10^−15 of cos(πj / Pm). -/
theorem cosScaled_near (j pm : ℕ) (hp : 1 ≤ pm) (hj : 2 * j ≤ pm) :
    |(cosScaled j pm : ℝ) / 2 ^ 128 - Real.cos (Real.pi * j / pm)| ≤ 1 / 10 ^ 15 := by
  have hpm : (0 : ℝ) < pm := by exact_mod_cast hp
  set P : ℝ := (piScaled : ℝ) / 10 ^ 50 with hP
  have hP1 : |P - Real.pi| ≤ 1 / 10 ^ 19 := by
    have := Real.pi_gt_d20; have := Real.pi_lt_d20
    rw [hP, abs_le]; norm_num [piScaled] at *; constructor <;> linarith
  have hP0 : 0 ≤ P := by positivity
  have hr : (j : ℝ) / pm ≤ 1 / 2 := by
    rw [div_le_iff₀ hpm]; have : (2 * j : ℝ) ≤ pm := by exact_mod_cast hj
    linarith
  have hr0 : 0 ≤ (j : ℝ) / pm := by positivity
  set x2 : ℕ := piScaled ^ 2 * j ^ 2 * 2 ^ 128 / (pm ^ 2 * 10 ^ 100) with hx2
  set θ : ℝ := P * (j / pm) with hθ
  have hθ0 : 0 ≤ θ := by positivity
  have hθ2 : θ ≤ 8 / 5 := by
    have : P ≤ 16 / 5 := by rw [hP]; norm_num [piScaled]
    calc θ ≤ 16 / 5 * (1 / 2) := mul_le_mul this hr hr0 (by norm_num)
      _ = 8 / 5 := by norm_num
  have hq : ((piScaled ^ 2 * j ^ 2 * 2 ^ 128 : ℕ) : ℝ) / ((pm ^ 2 * 10 ^ 100 : ℕ) : ℝ) = θ ^ 2 * 2 ^ 128 := by
    rw [hθ, hP]; push_cast; field_simp; ring
  have hlo : (x2 : ℝ) ≤ θ ^ 2 * 2 ^ 128 := by rw [← hq]; exact Nat.cast_div_le
  have hhi : θ ^ 2 * 2 ^ 128 ≤ x2 + 1 := by
    rw [← hq, div_le_iff₀ (by positivity)]
    exact_mod_cast (Nat.lt_mul_of_div_lt (Nat.lt_succ_self _) (by positivity) |>.le)
  set y : ℝ := (x2 : ℝ) / 2 ^ 128 with hy
  have hy0 : 0 ≤ y := by positivity
  have hylo : y ≤ θ ^ 2 := by rw [hy, div_le_iff₀ (by positivity)]; exact hlo
  have hyhi : θ ^ 2 ≤ y + 1 / 2 ^ 128 := by
    rw [hy, ← add_div, le_div_iff₀ (by positivity)]; exact hhi
  have hs : |(cosScaled j pm : ℝ) / 2 ^ 128 - ∑ m ∈ range 26, cosTerm y m| ≤ 1 / 10 ^ 20 := by
    have := cosSeries_near (x2 : ℤ) (by positivity) (by
      have : (x2 : ℝ) ≤ 4 * 2 ^ 128 := hlo.trans (by nlinarith)
      exact_mod_cast this) 26 0 (2 ^ 128) 0 le_rfl (by norm_num [cosTerm])
    simp only [zero_add, Int.cast_natCast, ← hy] at this
    have e : (cosScaled j pm : ℝ) / 2 ^ 128 - ∑ m ∈ range 26, cosTerm y m
        = ((cosScaled j pm : ℝ) - 2 ^ 128 * ∑ m ∈ range 26, cosTerm y m) / 2 ^ 128 := by field_simp
    rw [e, abs_div, abs_of_pos (by positivity : (0 : ℝ) < 2 ^ 128), div_le_iff₀ (by positivity)]
    refine le_trans (le_of_eq_of_le ?_ this) (by norm_num)
    rfl
  have ht := cosTerms_near (Real.sqrt y) (Real.sqrt_nonneg y) (by
    rw [Real.sqrt_le_left (by norm_num)]; nlinarith)
  rw [Real.sq_sqrt hy0] at ht
  have hc : |Real.cos (Real.sqrt y) - Real.cos θ| ≤ 1 / 10 ^ 18 := by
    have h1 : Real.sqrt y ≤ θ := Real.sqrt_le_iff.mpr ⟨hθ0, hylo⟩
    have h2 : θ ≤ Real.sqrt y + 1 / 2 ^ 64 := by
      have h3 := Real.sq_sqrt hy0
      have h4 := Real.sqrt_nonneg y
      by_contra hlt
      rw [not_le] at hlt
      have h5 : (Real.sqrt y + 1 / 2 ^ 64) ^ 2 < θ ^ 2 := pow_lt_pow_left₀ hlt (by positivity) (by norm_num)
      have h6 : (Real.sqrt y + 1 / 2 ^ 64) ^ 2 = y + 2 * (Real.sqrt y * (1 / 2 ^ 64)) + 1 / 2 ^ 128 := by
        rw [add_sq, h3]; ring
      have h7 : 0 ≤ Real.sqrt y * (1 / 2 ^ 64) := by positivity
      linarith
    have h3 := Real.abs_cos_sub_cos_le (Real.sqrt y) θ
    refine h3.trans ?_
    rw [abs_le]; constructor <;> norm_num at * <;> linarith
  have hd : |Real.cos θ - Real.cos (Real.pi * j / pm)| ≤ 1 / 10 ^ 19 := by
    refine (Real.abs_cos_sub_cos_le _ _).trans ?_
    rw [hθ, show P * ((j : ℝ) / pm) - Real.pi * j / pm = (P - Real.pi) * (j / pm) by ring, abs_mul, abs_of_nonneg hr0]
    nlinarith [abs_nonneg (P - Real.pi)]
  have k1 := abs_sub_le ((cosScaled j pm : ℝ) / 2 ^ 128) (∑ m ∈ range 26, cosTerm y m) (Real.cos (Real.pi * j / pm))
  have k2 := abs_sub_le (∑ m ∈ range 26, cosTerm y m) (Real.cos (Real.sqrt y)) (Real.cos (Real.pi * j / pm))
  have k3 := abs_sub_le (Real.cos (Real.sqrt y)) (Real.cos θ) (Real.cos (Real.pi * j / pm))
  norm_num at *
  linarith
end Sys2Proof.Machine
end

