-- ==== Sys2Proof/Laws/History.lean ====
section
/-! SUPPORT. The laws of the History Memory's ring: a read after a write, every other place left alone, and the canonical
form kept by every operation. -/

namespace Sys2Proof.Machine

/-! ## The ring -/

/-- A place below every listed place reads 0. -/
theorem ringRead_of_forall_lt (ring : List (Nat × Sample)) (a : Nat) (h : ∀ c ∈ ring, a < c.1) : ringRead ring a = 0 := by
  induction ring with
  | nil => rfl
  | cons c rest ih =>
    have hc := h c List.mem_cons_self
    simp only [ringRead]
    rw [if_neg (by omega), ih fun d hd => h d (List.mem_cons_of_mem _ hd)]

/-- Every place listed after a write is the one written or was listed before, and no sample 0 comes in. -/
theorem mem_ringWrite (ring : List (Nat × Sample)) (a : Nat) (x : Sample) (c : Nat × Sample) (h : c ∈ ringWrite ring a x) :
    c ∈ ring ∨ (c = (a, x) ∧ x ≠ 0) := by
  induction ring with
  | nil =>
    simp only [ringWrite] at h
    split at h <;> simp_all
  | cons d rest ih =>
    simp only [ringWrite] at h
    split at h
    · rcases List.mem_cons.1 h with rfl | h
      · exact .inl List.mem_cons_self
      · exact (ih h).imp_left (List.mem_cons_of_mem _)
    · split at h
      · split at h
        · exact .inl (List.mem_cons_of_mem _ h)
        · rcases List.mem_cons.1 h with rfl | h
          · exact .inr ⟨rfl, ‹_›⟩
          · exact .inl (List.mem_cons_of_mem _ h)
      · split at h
        · exact .inl h
        · rcases List.mem_cons.1 h with rfl | h
          · exact .inr ⟨rfl, ‹_›⟩
          · exact .inl h

/-- A write keeps the list's places strictly rising. -/
theorem ringWrite_rising (ring : List (Nat × Sample)) (a : Nat) (x : Sample)
    (h : ring.Pairwise fun c d => c.1 < d.1) : (ringWrite ring a x).Pairwise fun c d => c.1 < d.1 := by
  induction ring with
  | nil => simp only [ringWrite]; split <;> simp
  | cons c rest ih =>
    obtain ⟨hc, hr⟩ := List.pairwise_cons.1 h
    simp only [ringWrite]
    split
    · refine List.pairwise_cons.2 ⟨fun d hd => ?_, ih hr⟩
      rcases mem_ringWrite rest a x d hd with hd | ⟨rfl, -⟩
      · exact hc d hd
      · assumption
    · split
      · split
        · exact hr
        · exact List.pairwise_cons.2 ⟨fun d hd => by have := hc d hd; simp_all, hr⟩
      · split
        · exact h
        · refine List.pairwise_cons.2 ⟨fun d hd => ?_, h⟩
          rcases List.mem_cons.1 hd with rfl | hd
          · simp_all; omega
          · have := hc d hd; simp_all; omega

/-- A write at a place of the ring keeps its canonical form. -/
theorem ringWrite_wf (ring : List (Nat × Sample)) (a : Nat) (x : Sample) (ha : a < 4096) (h : ringWf ring) :
    ringWf (ringWrite ring a x) := by
  refine ⟨ringWrite_rising ring a x h.1, fun c hc => ?_⟩
  rcases mem_ringWrite ring a x c hc with hc | ⟨rfl, hx⟩
  · exact h.2 c hc
  · exact ⟨ha, hx⟩

/-- A read after a write: the place written reads the sample and every other place reads as before. -/
theorem ringRead_ringWrite (ring : List (Nat × Sample)) (a b : Nat) (x : Sample)
    (h : ring.Pairwise fun c d => c.1 < d.1) :
    ringRead (ringWrite ring a x) b = if b = a then x else ringRead ring b := by
  induction ring with
  | nil =>
    by_cases hx : x = 0
    · subst hx; simp [ringWrite, ringRead]
    · rw [show ringWrite [] a x = [(a, x)] from if_neg hx]
      simp only [ringRead, eq_comm]
  | cons c rest ih =>
    obtain ⟨hc, hr⟩ := List.pairwise_cons.1 h
    have low : b ≤ c.1 → b ≠ c.1 → ringRead rest b = 0 := fun h1 h2 =>
      ringRead_of_forall_lt rest b fun d hd => by have := hc d hd; omega
    have atC : ringRead rest c.1 = 0 := ringRead_of_forall_lt rest c.1 hc
    simp only [ringWrite]
    split
    · simp only [ringRead, ih hr]
      split
      · rw [if_neg (by omega)]
      · rfl
    · split
      · rename_i h1 h2
        subst h2
        split
        · rename_i hx
          subst hx
          by_cases hb : b = c.1
          · subst hb; simp [atC]
          · simp [ringRead, hb, Ne.symm hb]
        · by_cases hb : b = c.1
          · subst hb; simp [ringRead]
          · simp [ringRead, hb, Ne.symm hb]
      · split
        · rename_i h1 h2 hx
          subst hx
          by_cases hb : b = a
          · subst hb
            simp only [ringRead, if_neg h2, if_true]
            exact low (by omega) (Ne.symm h2)
          · simp [hb]
        · by_cases hb : b = a
          · subst hb; simp [ringRead]
          · simp [ringRead, hb, Ne.symm hb]

/-! ## The History Memory -/

/-- A place of the ring is below 4096. -/
theorem ringPlace_lt (n : SampleNumber) : ringPlace n < 4096 := Nat.mod_lt _ (by decide)

/-- Writing a sample keeps the memory well formed (R14). -/
theorem HistoryMemory.write_wf (h : HistoryMemory) (n : SampleNumber) (x : Sample) (hw : h.wf) : (h.write n x).wf :=
  ⟨ringWrite_wf _ _ _ (ringPlace_lt n) hw.1, Nat.min_le_left _ _⟩

/-- Emptying leaves the memory well formed (R16). -/
theorem HistoryMemory.empty_wf (h : HistoryMemory) : h.empty.wf := by
  simp [HistoryMemory.empty, HistoryMemory.wf, ringWf]

/-- The memory after reset is well formed (R16). -/
theorem HistoryMemory.reset_wf : HistoryMemory.reset.wf := by
  simp [HistoryMemory.reset, HistoryMemory.wf, ringWf]

/-- An empty memory reads 0 everywhere (R15, R16). -/
theorem HistoryMemory.read_of_fill_zero (h : HistoryMemory) (n : SampleNumber) (hf : h.fill = 0) : h.read n = 0 := by
  unfold HistoryMemory.read
  rw [if_neg]
  simp only [HistoryMemory.held, HistoryMemory.retained, hf, Bool.and_eq_true, decide_eq_true_eq]
  omega

@[simp] theorem HistoryMemory.write_newest (h : HistoryMemory) (n : SampleNumber) (x : Sample) :
    (h.write n x).newest = n := rfl

@[simp] theorem HistoryMemory.write_fill (h : HistoryMemory) (n : SampleNumber) (x : Sample) :
    (h.write n x).fill = min 4096 (h.fill + 1) := rfl

@[simp] theorem HistoryMemory.empty_newest (h : HistoryMemory) : h.empty.newest = h.newest := rfl

@[simp] theorem HistoryMemory.empty_fill (h : HistoryMemory) : h.empty.fill = 0 := rfl

end Sys2Proof.Machine
end

