-- ==== Sys2Proof/Laws/State.lean ====
section
/-! SUPPORT. One lemma per field per update of State: what each shared update leaves of every field, true by rfl, so that no
proof unfolds a record update. -/

namespace Sys2Proof.Machine

variable (s : State)

/-! ### setVoice -/

@[simp] theorem State.setVoice_ap (v : VoiceIx) (vo : Voice) : (s.setVoice v vo).ap = s.ap := rfl
@[simp] theorem State.setVoice_inp (v : VoiceIx) (vo : Voice) : (s.setVoice v vo).inp = s.inp := rfl
@[simp] theorem State.setVoice_hm (v : VoiceIx) (vo : Voice) : (s.setVoice v vo).hm = s.hm := rfl
@[simp] theorem State.setVoice_pt (v : VoiceIx) (vo : Voice) : (s.setVoice v vo).pt = s.pt := rfl
@[simp] theorem State.setVoice_cu (v : VoiceIx) (vo : Voice) : (s.setVoice v vo).cu = s.cu := rfl
@[simp] theorem State.setVoice_cfg (v : VoiceIx) (vo : Voice) : (s.setVoice v vo).cfg = s.cfg := rfl
@[simp] theorem State.setVoice_link (v : VoiceIx) (vo : Voice) : (s.setVoice v vo).link = s.link := rfl
@[simp] theorem State.setVoice_peers (v : VoiceIx) (vo : Voice) : (s.setVoice v vo).peers = s.peers := rfl
@[simp] theorem State.setVoice_bm (v : VoiceIx) (vo : Voice) : (s.setVoice v vo).bm = s.bm := rfl
@[simp] theorem State.setVoice_sc (v : VoiceIx) (vo : Voice) : (s.setVoice v vo).sc = s.sc := rfl
@[simp] theorem State.setVoice_pending (v : VoiceIx) (vo : Voice) : (s.setVoice v vo).pending = s.pending := rfl
@[simp] theorem State.setVoice_voices (v : VoiceIx) (vo : Voice) : (s.setVoice v vo).voices = s.voices.set v vo := rfl

/-! ### mapVoices -/

@[simp] theorem State.mapVoices_ap (f : VoiceIx → Voice → Voice) : (s.mapVoices f).ap = s.ap := rfl
@[simp] theorem State.mapVoices_inp (f : VoiceIx → Voice → Voice) : (s.mapVoices f).inp = s.inp := rfl
@[simp] theorem State.mapVoices_hm (f : VoiceIx → Voice → Voice) : (s.mapVoices f).hm = s.hm := rfl
@[simp] theorem State.mapVoices_pt (f : VoiceIx → Voice → Voice) : (s.mapVoices f).pt = s.pt := rfl
@[simp] theorem State.mapVoices_cu (f : VoiceIx → Voice → Voice) : (s.mapVoices f).cu = s.cu := rfl
@[simp] theorem State.mapVoices_cfg (f : VoiceIx → Voice → Voice) : (s.mapVoices f).cfg = s.cfg := rfl
@[simp] theorem State.mapVoices_link (f : VoiceIx → Voice → Voice) : (s.mapVoices f).link = s.link := rfl
@[simp] theorem State.mapVoices_peers (f : VoiceIx → Voice → Voice) : (s.mapVoices f).peers = s.peers := rfl
@[simp] theorem State.mapVoices_bm (f : VoiceIx → Voice → Voice) : (s.mapVoices f).bm = s.bm := rfl
@[simp] theorem State.mapVoices_sc (f : VoiceIx → Voice → Voice) : (s.mapVoices f).sc = s.sc := rfl
@[simp] theorem State.mapVoices_pending (f : VoiceIx → Voice → Voice) : (s.mapVoices f).pending = s.pending := rfl
@[simp] theorem State.mapVoices_voices (f : VoiceIx → Voice → Voice) :
    (s.mapVoices f).voices = Vector.ofFn fun v => f v s.voices[v] := rfl

/-! ### raise -/

@[simp] theorem State.raise_ap (c : Cause) : (s.raise c).ap = s.ap := rfl
@[simp] theorem State.raise_inp (c : Cause) : (s.raise c).inp = s.inp := rfl
@[simp] theorem State.raise_hm (c : Cause) : (s.raise c).hm = s.hm := rfl
@[simp] theorem State.raise_pt (c : Cause) : (s.raise c).pt = s.pt := rfl
@[simp] theorem State.raise_cu (c : Cause) : (s.raise c).cu = s.cu := rfl
@[simp] theorem State.raise_cfg (c : Cause) : (s.raise c).cfg = s.cfg := rfl
@[simp] theorem State.raise_voices (c : Cause) : (s.raise c).voices = s.voices := rfl
@[simp] theorem State.raise_link (c : Cause) : (s.raise c).link = s.link := rfl
@[simp] theorem State.raise_peers (c : Cause) : (s.raise c).peers = s.peers := rfl
@[simp] theorem State.raise_bm (c : Cause) : (s.raise c).bm = s.bm := rfl
@[simp] theorem State.raise_pending (c : Cause) : (s.raise c).pending = s.pending := rfl
@[simp] theorem State.raise_sc_part (c : Cause) : (s.raise c).sc.part = s.sc.part := rfl
@[simp] theorem State.raise_sc_cause (c : Cause) : (s.raise c).sc.cause = s.sc.cause := rfl
@[simp] theorem State.raise_sc_station (c : Cause) : (s.raise c).sc.station = s.sc.station := rfl
@[simp] theorem State.raise_sc_solo (c : Cause) : (s.raise c).sc.solo = s.sc.solo := rfl
@[simp] theorem State.raise_sc_mask (c : Cause) : (s.raise c).sc.mask = s.sc.mask := rfl
@[simp] theorem State.raise_sc_liveEntry (c : Cause) : (s.raise c).sc.liveEntry = s.sc.liveEntry := rfl
@[simp] theorem State.raise_sc_wakeOnVoice (c : Cause) : (s.raise c).sc.wakeOnVoice = s.sc.wakeOnVoice := rfl
@[simp] theorem State.raise_sc_shiftOut (c : Cause) : (s.raise c).sc.shiftOut = s.sc.shiftOut := rfl
@[simp] theorem State.raise_sc_port (c : Cause) : (s.raise c).sc.port = s.sc.port := rfl
@[simp] theorem State.raise_sc_pinHeld (c : Cause) : (s.raise c).sc.pinHeld = s.sc.pinHeld := rfl
@[simp] theorem State.raise_sc_powerOnHeld (c : Cause) : (s.raise c).sc.powerOnHeld = s.sc.powerOnHeld := rfl
@[simp] theorem State.raise_sc_resetHeld (c : Cause) : (s.raise c).sc.resetHeld = s.sc.resetHeld := rfl
@[simp] theorem State.raise_sc_powerOnSeen (c : Cause) : (s.raise c).sc.powerOnSeen = s.sc.powerOnSeen := rfl
@[simp] theorem State.raise_sc_causes (c : Cause) : (s.raise c).sc.causes = s.sc.causes ||| c.bit := rfl
@[simp] theorem State.raise_sc_capture (c : Cause) :
    (s.raise c).sc.capture = s.sc.capture.map (Capture.keepRaised c) := rfl

/-! ### refuse -/

@[simp] theorem State.refuse_ap : s.refuse.ap = s.ap := rfl
@[simp] theorem State.refuse_inp : s.refuse.inp = s.inp := rfl
@[simp] theorem State.refuse_hm : s.refuse.hm = s.hm := rfl
@[simp] theorem State.refuse_pt : s.refuse.pt = s.pt := rfl
@[simp] theorem State.refuse_cu : s.refuse.cu = s.cu := rfl
@[simp] theorem State.refuse_cfg : s.refuse.cfg = s.cfg := rfl
@[simp] theorem State.refuse_voices : s.refuse.voices = s.voices := rfl
@[simp] theorem State.refuse_link : s.refuse.link = s.link := rfl
@[simp] theorem State.refuse_peers : s.refuse.peers = s.peers := rfl
@[simp] theorem State.refuse_bm : s.refuse.bm = s.bm := rfl
@[simp] theorem State.refuse_pending : s.refuse.pending = s.pending := rfl
@[simp] theorem State.refuse_sc_causes : s.refuse.sc.causes = s.sc.causes ||| Cause.refused.bit := rfl
@[simp] theorem State.refuse_sc_part : s.refuse.sc.part = s.sc.part := rfl

/-! ### offer -/

@[simp] theorem State.offer_ap (e : Entry) : (s.offer e).ap = s.ap := rfl
@[simp] theorem State.offer_inp (e : Entry) : (s.offer e).inp = s.inp := rfl
@[simp] theorem State.offer_hm (e : Entry) : (s.offer e).hm = s.hm := rfl
@[simp] theorem State.offer_pt (e : Entry) : (s.offer e).pt = s.pt := rfl
@[simp] theorem State.offer_cu (e : Entry) : (s.offer e).cu = s.cu := rfl
@[simp] theorem State.offer_cfg (e : Entry) : (s.offer e).cfg = s.cfg := rfl
@[simp] theorem State.offer_voices (e : Entry) : (s.offer e).voices = s.voices := rfl
@[simp] theorem State.offer_peers (e : Entry) : (s.offer e).peers = s.peers := rfl
@[simp] theorem State.offer_bm (e : Entry) : (s.offer e).bm = s.bm := rfl
@[simp] theorem State.offer_sc (e : Entry) : (s.offer e).sc = s.sc := rfl
@[simp] theorem State.offer_pending (e : Entry) : (s.offer e).pending = s.pending := rfl
@[simp] theorem State.offer_link (e : Entry) : (s.offer e).link = s.link.offer e := rfl

/-! ### offerLead -/

@[simp] theorem State.offerLead_ap : s.offerLead.ap = s.ap := rfl
@[simp] theorem State.offerLead_inp : s.offerLead.inp = s.inp := rfl
@[simp] theorem State.offerLead_hm : s.offerLead.hm = s.hm := rfl
@[simp] theorem State.offerLead_pt : s.offerLead.pt = s.pt := rfl
@[simp] theorem State.offerLead_cu : s.offerLead.cu = s.cu := rfl
@[simp] theorem State.offerLead_cfg : s.offerLead.cfg = s.cfg := rfl
@[simp] theorem State.offerLead_voices : s.offerLead.voices = s.voices := rfl
@[simp] theorem State.offerLead_peers : s.offerLead.peers = s.peers := rfl
@[simp] theorem State.offerLead_bm : s.offerLead.bm = s.bm := rfl
@[simp] theorem State.offerLead_sc : s.offerLead.sc = s.sc := rfl
@[simp] theorem State.offerLead_pending : s.offerLead.pending = s.pending := rfl
@[simp] theorem State.offerLead_link : s.offerLead.link = { s.link.offer .lead with leadCount := 0 } := rfl

/-! ### offerKey -/

@[simp] theorem State.offerKey_ap : s.offerKey.ap = s.ap := rfl
@[simp] theorem State.offerKey_inp : s.offerKey.inp = s.inp := rfl
@[simp] theorem State.offerKey_hm : s.offerKey.hm = s.hm := rfl
@[simp] theorem State.offerKey_pt : s.offerKey.pt = s.pt := rfl
@[simp] theorem State.offerKey_cu : s.offerKey.cu = s.cu := rfl
@[simp] theorem State.offerKey_cfg : s.offerKey.cfg = s.cfg := rfl
@[simp] theorem State.offerKey_voices : s.offerKey.voices = s.voices := rfl
@[simp] theorem State.offerKey_peers : s.offerKey.peers = s.peers := rfl
@[simp] theorem State.offerKey_bm : s.offerKey.bm = s.bm := rfl
@[simp] theorem State.offerKey_sc : s.offerKey.sc = s.sc := rfl
@[simp] theorem State.offerKey_pending : s.offerKey.pending = s.pending := rfl
@[simp] theorem State.offerKey_link : s.offerKey.link = { s.link.offer .key with keyCount := 0 } := rfl

/-! ### offerHello -/

@[simp] theorem State.offerHello_ap (fresh : Bool) : (s.offerHello fresh).ap = s.ap := rfl
@[simp] theorem State.offerHello_inp (fresh : Bool) : (s.offerHello fresh).inp = s.inp := rfl
@[simp] theorem State.offerHello_hm (fresh : Bool) : (s.offerHello fresh).hm = s.hm := rfl
@[simp] theorem State.offerHello_pt (fresh : Bool) : (s.offerHello fresh).pt = s.pt := rfl
@[simp] theorem State.offerHello_cu (fresh : Bool) : (s.offerHello fresh).cu = s.cu := rfl
@[simp] theorem State.offerHello_cfg (fresh : Bool) : (s.offerHello fresh).cfg = s.cfg := rfl
@[simp] theorem State.offerHello_voices (fresh : Bool) : (s.offerHello fresh).voices = s.voices := rfl
@[simp] theorem State.offerHello_peers (fresh : Bool) : (s.offerHello fresh).peers = s.peers := rfl
@[simp] theorem State.offerHello_bm (fresh : Bool) : (s.offerHello fresh).bm = s.bm := rfl
@[simp] theorem State.offerHello_sc (fresh : Bool) : (s.offerHello fresh).sc = s.sc := rfl
@[simp] theorem State.offerHello_pending (fresh : Bool) : (s.offerHello fresh).pending = s.pending := rfl
@[simp] theorem State.offerHello_link (fresh : Bool) : (s.offerHello fresh).link = s.link.offer (.hello fresh) := rfl

/-! ### fadeEntry -/

@[simp] theorem State.fadeEntry_ap (v : VoiceIx) : (s.fadeEntry v).ap = s.ap := rfl
@[simp] theorem State.fadeEntry_inp (v : VoiceIx) : (s.fadeEntry v).inp = s.inp := rfl
@[simp] theorem State.fadeEntry_hm (v : VoiceIx) : (s.fadeEntry v).hm = s.hm := rfl
@[simp] theorem State.fadeEntry_pt (v : VoiceIx) : (s.fadeEntry v).pt = s.pt := rfl
@[simp] theorem State.fadeEntry_cu (v : VoiceIx) : (s.fadeEntry v).cu = s.cu := rfl
@[simp] theorem State.fadeEntry_cfg (v : VoiceIx) : (s.fadeEntry v).cfg = s.cfg := rfl
@[simp] theorem State.fadeEntry_peers (v : VoiceIx) : (s.fadeEntry v).peers = s.peers := rfl
@[simp] theorem State.fadeEntry_bm (v : VoiceIx) : (s.fadeEntry v).bm = s.bm := rfl
@[simp] theorem State.fadeEntry_sc (v : VoiceIx) : (s.fadeEntry v).sc = s.sc := rfl
@[simp] theorem State.fadeEntry_pending (v : VoiceIx) : (s.fadeEntry v).pending = s.pending := rfl
@[simp] theorem State.fadeEntry_link (v : VoiceIx) : (s.fadeEntry v).link = s.link.offer (.drop v) := rfl
@[simp] theorem State.fadeEntry_voices (v : VoiceIx) :
    (s.fadeEntry v).voices = s.voices.set v s.voices[v].toFade := rfl

/-! ### clearFreeCounts -/

@[simp] theorem State.clearFreeCounts_ap : s.clearFreeCounts.ap = s.ap := rfl
@[simp] theorem State.clearFreeCounts_inp : s.clearFreeCounts.inp = s.inp := rfl
@[simp] theorem State.clearFreeCounts_hm : s.clearFreeCounts.hm = s.hm := rfl
@[simp] theorem State.clearFreeCounts_pt : s.clearFreeCounts.pt = s.pt := rfl
@[simp] theorem State.clearFreeCounts_cu : s.clearFreeCounts.cu = s.cu := rfl
@[simp] theorem State.clearFreeCounts_cfg : s.clearFreeCounts.cfg = s.cfg := rfl
@[simp] theorem State.clearFreeCounts_link : s.clearFreeCounts.link = s.link := rfl
@[simp] theorem State.clearFreeCounts_peers : s.clearFreeCounts.peers = s.peers := rfl
@[simp] theorem State.clearFreeCounts_bm : s.clearFreeCounts.bm = s.bm := rfl
@[simp] theorem State.clearFreeCounts_sc : s.clearFreeCounts.sc = s.sc := rfl
@[simp] theorem State.clearFreeCounts_pending : s.clearFreeCounts.pending = s.pending := rfl
@[simp] theorem State.clearFreeCounts_voices :
    s.clearFreeCounts.voices =
      Vector.ofFn fun v => { s.voices[v] with plan := { s.voices[v].plan with freeCount := 0 } } := rfl

/-! ### noteContextChange -/

@[simp] theorem State.noteContextChange_ap : s.noteContextChange.ap = s.ap := rfl
@[simp] theorem State.noteContextChange_inp : s.noteContextChange.inp = s.inp := rfl
@[simp] theorem State.noteContextChange_hm : s.noteContextChange.hm = s.hm := rfl
@[simp] theorem State.noteContextChange_pt : s.noteContextChange.pt = s.pt := rfl
@[simp] theorem State.noteContextChange_cfg : s.noteContextChange.cfg = s.cfg := rfl
@[simp] theorem State.noteContextChange_link : s.noteContextChange.link = s.link := rfl
@[simp] theorem State.noteContextChange_peers : s.noteContextChange.peers = s.peers := rfl
@[simp] theorem State.noteContextChange_bm : s.noteContextChange.bm = s.bm := rfl
@[simp] theorem State.noteContextChange_pending : s.noteContextChange.pending = s.pending := rfl
@[simp] theorem State.noteContextChange_cu : s.noteContextChange.cu = { s.cu with changed := true } := rfl
@[simp] theorem State.noteContextChange_sc_causes :
    s.noteContextChange.sc.causes = s.sc.causes ||| Cause.context.bit := rfl
@[simp] theorem State.noteContextChange_voices :
    s.noteContextChange.voices =
      Vector.ofFn fun v => { s.voices[v] with plan := { s.voices[v].plan with freeCount := 0 } } := rfl
@[simp] theorem State.noteContextChange_sc_part : s.noteContextChange.sc.part = s.sc.part := rfl
@[simp] theorem State.noteContextChange_sc_cause : s.noteContextChange.sc.cause = s.sc.cause := rfl
@[simp] theorem State.noteContextChange_sc_station : s.noteContextChange.sc.station = s.sc.station := rfl
@[simp] theorem State.noteContextChange_sc_solo : s.noteContextChange.sc.solo = s.sc.solo := rfl
@[simp] theorem State.noteContextChange_sc_mask : s.noteContextChange.sc.mask = s.sc.mask := rfl
@[simp] theorem State.noteContextChange_sc_liveEntry : s.noteContextChange.sc.liveEntry = s.sc.liveEntry := rfl
@[simp] theorem State.noteContextChange_sc_wakeOnVoice : s.noteContextChange.sc.wakeOnVoice = s.sc.wakeOnVoice := rfl
@[simp] theorem State.noteContextChange_sc_shiftOut : s.noteContextChange.sc.shiftOut = s.sc.shiftOut := rfl
@[simp] theorem State.noteContextChange_sc_port : s.noteContextChange.sc.port = s.sc.port := rfl
@[simp] theorem State.noteContextChange_sc_pinHeld : s.noteContextChange.sc.pinHeld = s.sc.pinHeld := rfl
@[simp] theorem State.noteContextChange_sc_powerOnHeld : s.noteContextChange.sc.powerOnHeld = s.sc.powerOnHeld := rfl
@[simp] theorem State.noteContextChange_sc_resetHeld : s.noteContextChange.sc.resetHeld = s.sc.resetHeld := rfl
@[simp] theorem State.noteContextChange_sc_powerOnSeen : s.noteContextChange.sc.powerOnSeen = s.sc.powerOnSeen := rfl

/-! ### endTransaction -/

@[simp] theorem State.endTransaction_ap : s.endTransaction.ap = s.ap := rfl
@[simp] theorem State.endTransaction_inp : s.endTransaction.inp = s.inp := rfl
@[simp] theorem State.endTransaction_hm : s.endTransaction.hm = s.hm := rfl
@[simp] theorem State.endTransaction_pt : s.endTransaction.pt = s.pt := rfl
@[simp] theorem State.endTransaction_cu : s.endTransaction.cu = s.cu := rfl
@[simp] theorem State.endTransaction_cfg : s.endTransaction.cfg = s.cfg := rfl
@[simp] theorem State.endTransaction_voices : s.endTransaction.voices = s.voices := rfl
@[simp] theorem State.endTransaction_link : s.endTransaction.link = s.link := rfl
@[simp] theorem State.endTransaction_peers : s.endTransaction.peers = s.peers := rfl
@[simp] theorem State.endTransaction_bm : s.endTransaction.bm = s.bm := rfl
@[simp] theorem State.endTransaction_pending : s.endTransaction.pending = s.pending := rfl
@[simp] theorem State.endTransaction_sc : s.endTransaction.sc = { s.sc with capture := none } := rfl

/-! ### endCalibration -/

@[simp] theorem State.endCalibration_ap : s.endCalibration.ap = s.ap := rfl
@[simp] theorem State.endCalibration_hm : s.endCalibration.hm = s.hm := rfl
@[simp] theorem State.endCalibration_pt : s.endCalibration.pt = s.pt := rfl
@[simp] theorem State.endCalibration_cu : s.endCalibration.cu = s.cu := rfl
@[simp] theorem State.endCalibration_cfg : s.endCalibration.cfg = s.cfg := rfl
@[simp] theorem State.endCalibration_voices : s.endCalibration.voices = s.voices := rfl
@[simp] theorem State.endCalibration_link : s.endCalibration.link = s.link := rfl
@[simp] theorem State.endCalibration_peers : s.endCalibration.peers = s.peers := rfl
@[simp] theorem State.endCalibration_bm : s.endCalibration.bm = s.bm := rfl
@[simp] theorem State.endCalibration_pending : s.endCalibration.pending = s.pending := rfl
@[simp] theorem State.endCalibration_inp : s.endCalibration.inp = { s.inp with measurement := none } := rfl
@[simp] theorem State.endCalibration_sc_part : s.endCalibration.sc.part = .setup := rfl
@[simp] theorem State.endCalibration_sc_causes : s.endCalibration.sc.causes = s.sc.causes ||| Cause.done.bit := rfl

/-! ### setPeer -/

@[simp] theorem State.setPeer_ap (p : Station) (r : Option PeerRecord) : (s.setPeer p r).ap = s.ap := rfl
@[simp] theorem State.setPeer_inp (p : Station) (r : Option PeerRecord) : (s.setPeer p r).inp = s.inp := rfl
@[simp] theorem State.setPeer_hm (p : Station) (r : Option PeerRecord) : (s.setPeer p r).hm = s.hm := rfl
@[simp] theorem State.setPeer_pt (p : Station) (r : Option PeerRecord) : (s.setPeer p r).pt = s.pt := rfl
@[simp] theorem State.setPeer_cu (p : Station) (r : Option PeerRecord) : (s.setPeer p r).cu = s.cu := rfl
@[simp] theorem State.setPeer_cfg (p : Station) (r : Option PeerRecord) : (s.setPeer p r).cfg = s.cfg := rfl
@[simp] theorem State.setPeer_voices (p : Station) (r : Option PeerRecord) : (s.setPeer p r).voices = s.voices := rfl
@[simp] theorem State.setPeer_link (p : Station) (r : Option PeerRecord) : (s.setPeer p r).link = s.link := rfl
@[simp] theorem State.setPeer_bm (p : Station) (r : Option PeerRecord) : (s.setPeer p r).bm = s.bm := rfl
@[simp] theorem State.setPeer_sc (p : Station) (r : Option PeerRecord) : (s.setPeer p r).sc = s.sc := rfl
@[simp] theorem State.setPeer_pending (p : Station) (r : Option PeerRecord) :
    (s.setPeer p r).pending = s.pending := rfl
@[simp] theorem State.setPeer_peers (p : Station) (r : Option PeerRecord) :
    (s.setPeer p r).peers = s.peers.set p r := rfl

/-! ### takeSample -/

@[simp] theorem State.takeSample_pt (raw : Int) : (s.takeSample raw).pt = s.pt := rfl
@[simp] theorem State.takeSample_cu (raw : Int) : (s.takeSample raw).cu = s.cu := rfl
@[simp] theorem State.takeSample_cfg (raw : Int) : (s.takeSample raw).cfg = s.cfg := rfl
@[simp] theorem State.takeSample_voices (raw : Int) : (s.takeSample raw).voices = s.voices := rfl
@[simp] theorem State.takeSample_link (raw : Int) : (s.takeSample raw).link = s.link := rfl
@[simp] theorem State.takeSample_peers (raw : Int) : (s.takeSample raw).peers = s.peers := rfl
@[simp] theorem State.takeSample_bm (raw : Int) : (s.takeSample raw).bm = s.bm := rfl
@[simp] theorem State.takeSample_sc (raw : Int) : (s.takeSample raw).sc = s.sc := rfl
@[simp] theorem State.takeSample_pending (raw : Int) : (s.takeSample raw).pending = s.pending := rfl
@[simp] theorem State.takeSample_hm (raw : Int) :
    (s.takeSample raw).hm = s.hm.write s.ap.sampleCounter (s.inp.condition raw) := rfl
@[simp] theorem State.takeSample_inp (raw : Int) : (s.takeSample raw).inp = s.inp.measure raw := rfl
@[simp] theorem State.takeSample_ap (raw : Int) :
    (s.takeSample raw).ap =
      { s.ap with sampleCounter := s.ap.sampleCounter + 1, hopCount := min 256 (s.ap.hopCount + 1), slotOpen := false } := rfl

/-! ### tallyWork -/

@[simp] theorem State.tallyWork_ap : s.tallyWork.ap = s.ap := rfl
@[simp] theorem State.tallyWork_inp : s.tallyWork.inp = s.inp := rfl
@[simp] theorem State.tallyWork_hm : s.tallyWork.hm = s.hm := rfl
@[simp] theorem State.tallyWork_pt : s.tallyWork.pt = s.pt := rfl
@[simp] theorem State.tallyWork_cfg : s.tallyWork.cfg = s.cfg := rfl
@[simp] theorem State.tallyWork_voices : s.tallyWork.voices = s.voices := rfl
@[simp] theorem State.tallyWork_link : s.tallyWork.link = s.link := rfl
@[simp] theorem State.tallyWork_peers : s.tallyWork.peers = s.peers := rfl
@[simp] theorem State.tallyWork_bm : s.tallyWork.bm = s.bm := rfl
@[simp] theorem State.tallyWork_sc : s.tallyWork.sc = s.sc := rfl
@[simp] theorem State.tallyWork_pending : s.tallyWork.pending = s.pending := rfl
@[simp] theorem State.tallyWork_cu_held : s.tallyWork.cu.held = s.cu.held := rfl
@[simp] theorem State.tallyWork_cu_holdCount : s.tallyWork.cu.holdCount = s.cu.holdCount := rfl
@[simp] theorem State.tallyWork_cu_decisionCount : s.tallyWork.cu.decisionCount = s.cu.decisionCount := rfl
@[simp] theorem State.tallyWork_cu_key : s.tallyWork.cu.key = s.cu.key := rfl
@[simp] theorem State.tallyWork_cu_mode : s.tallyWork.cu.mode = s.cu.mode := rfl
@[simp] theorem State.tallyWork_cu_openDecision : s.tallyWork.cu.openDecision = s.cu.openDecision := rfl
@[simp] theorem State.tallyWork_cu_changed : s.tallyWork.cu.changed = s.cu.changed := rfl

/-! ### trackerWork -/

@[simp] theorem State.trackerWork_ap : s.trackerWork.ap = s.ap := rfl
@[simp] theorem State.trackerWork_hm : s.trackerWork.hm = s.hm := rfl
@[simp] theorem State.trackerWork_cu : s.trackerWork.cu = s.cu := rfl
@[simp] theorem State.trackerWork_cfg : s.trackerWork.cfg = s.cfg := rfl
@[simp] theorem State.trackerWork_voices : s.trackerWork.voices = s.voices := rfl
@[simp] theorem State.trackerWork_link : s.trackerWork.link = s.link := rfl
@[simp] theorem State.trackerWork_peers : s.trackerWork.peers = s.peers := rfl
@[simp] theorem State.trackerWork_bm : s.trackerWork.bm = s.bm := rfl
@[simp] theorem State.trackerWork_sc : s.trackerWork.sc = s.sc := rfl
@[simp] theorem State.trackerWork_pending : s.trackerWork.pending = s.pending := rfl
@[simp] theorem State.trackerWork_inp : s.trackerWork.inp = { s.inp with level := s.hm.hopLevel } := rfl
@[simp] theorem State.trackerWork_pt_record : s.trackerWork.pt.record = s.hopRecord s.hm.hopLevel := rfl
@[simp] theorem State.trackerWork_pt_prevVoiced : s.trackerWork.pt.prevVoiced = s.pt.record.voiced := rfl

/-! ### contestAll -/

@[simp] theorem State.contestAll_ap (held : Nat) : (s.contestAll held).ap = s.ap := rfl
@[simp] theorem State.contestAll_inp (held : Nat) : (s.contestAll held).inp = s.inp := rfl
@[simp] theorem State.contestAll_hm (held : Nat) : (s.contestAll held).hm = s.hm := rfl
@[simp] theorem State.contestAll_pt (held : Nat) : (s.contestAll held).pt = s.pt := rfl
@[simp] theorem State.contestAll_cu (held : Nat) : (s.contestAll held).cu = s.cu := rfl
@[simp] theorem State.contestAll_cfg (held : Nat) : (s.contestAll held).cfg = s.cfg := rfl
@[simp] theorem State.contestAll_link (held : Nat) : (s.contestAll held).link = s.link := rfl
@[simp] theorem State.contestAll_peers (held : Nat) : (s.contestAll held).peers = s.peers := rfl
@[simp] theorem State.contestAll_bm (held : Nat) : (s.contestAll held).bm = s.bm := rfl
@[simp] theorem State.contestAll_sc (held : Nat) : (s.contestAll held).sc = s.sc := rfl
@[simp] theorem State.contestAll_pending (held : Nat) : (s.contestAll held).pending = s.pending := rfl

/-! ### captureWord -/

@[simp] theorem State.captureWord_ap (addr : BitVec 6) (c : Option Capture) : (s.captureWord addr c).ap = s.ap := rfl
@[simp] theorem State.captureWord_inp (addr : BitVec 6) (c : Option Capture) :
    (s.captureWord addr c).inp = s.inp := rfl
@[simp] theorem State.captureWord_hm (addr : BitVec 6) (c : Option Capture) : (s.captureWord addr c).hm = s.hm := rfl
@[simp] theorem State.captureWord_pt (addr : BitVec 6) (c : Option Capture) : (s.captureWord addr c).pt = s.pt := rfl
@[simp] theorem State.captureWord_cu (addr : BitVec 6) (c : Option Capture) : (s.captureWord addr c).cu = s.cu := rfl
@[simp] theorem State.captureWord_cfg (addr : BitVec 6) (c : Option Capture) :
    (s.captureWord addr c).cfg = s.cfg := rfl
@[simp] theorem State.captureWord_voices (addr : BitVec 6) (c : Option Capture) :
    (s.captureWord addr c).voices = s.voices := rfl
@[simp] theorem State.captureWord_link (addr : BitVec 6) (c : Option Capture) :
    (s.captureWord addr c).link = s.link := rfl
@[simp] theorem State.captureWord_peers (addr : BitVec 6) (c : Option Capture) :
    (s.captureWord addr c).peers = s.peers := rfl
@[simp] theorem State.captureWord_bm (addr : BitVec 6) (c : Option Capture) : (s.captureWord addr c).bm = s.bm := rfl
@[simp] theorem State.captureWord_pending (addr : BitVec 6) (c : Option Capture) :
    (s.captureWord addr c).pending = s.pending := rfl
@[simp] theorem State.captureWord_sc (addr : BitVec 6) (c : Option Capture) :
    (s.captureWord addr c).sc = { s.sc with shiftOut := s.readWord addr, capture := c } := rfl

/-! ### lossBlocks -/

@[simp] theorem State.lossBlocks_inp : s.lossBlocks.inp = s.inp := rfl
@[simp] theorem State.lossBlocks_hm : s.lossBlocks.hm = s.hm := rfl
@[simp] theorem State.lossBlocks_cu : s.lossBlocks.cu = s.cu := rfl
@[simp] theorem State.lossBlocks_cfg : s.lossBlocks.cfg = s.cfg := rfl
@[simp] theorem State.lossBlocks_voices : s.lossBlocks.voices = s.voices := rfl
@[simp] theorem State.lossBlocks_link : s.lossBlocks.link = s.link := rfl
@[simp] theorem State.lossBlocks_peers : s.lossBlocks.peers = s.peers := rfl
@[simp] theorem State.lossBlocks_sc : s.lossBlocks.sc = s.sc := rfl
@[simp] theorem State.lossBlocks_pending : s.lossBlocks.pending = s.pending := rfl
@[simp] theorem State.lossBlocks_bm : s.lossBlocks.bm = s.bm.atSyncLoss := rfl

/-! ### Updates of one voice -/

variable (vo : Voice)

@[simp] theorem Voice.withoutClaim_cfg : (vo.withoutClaim).cfg = vo.cfg := rfl
@[simp] theorem Voice.withoutClaim_eng : (vo.withoutClaim).eng = vo.eng := rfl
@[simp] theorem Voice.toFade_cfg : (vo.toFade).cfg = vo.cfg := rfl
@[simp] theorem Voice.advanceGrains_cfg : (vo.advanceGrains).cfg = vo.cfg := rfl
@[simp] theorem Voice.advanceGrains_plan : (vo.advanceGrains).plan = vo.plan := rfl
@[simp] theorem Voice.endGrains_cfg : (vo.endGrains).cfg = vo.cfg := rfl
@[simp] theorem Voice.endGrains_plan : (vo.endGrains).plan = vo.plan := rfl
@[simp] theorem Voice.takePrimary_cfg : (vo.takePrimary).cfg = vo.cfg := rfl
@[simp] theorem Voice.takePrimary_eng : (vo.takePrimary).eng = vo.eng := rfl
@[simp] theorem Voice.cleared_cfg : (vo.cleared).cfg = vo.cfg := rfl
@[simp] theorem Voice.cleared_plan : (vo.cleared).plan = vo.plan := rfl
@[simp] theorem Voice.toFade_plan : vo.toFade.plan = vo.withoutClaim.plan := rfl
@[simp] theorem Voice.toFade_eng : vo.toFade.eng = { vo.eng with state := .fade } := rfl
@[simp] theorem Voice.takeAlternate_cfg (free : Nat) : (vo.takeAlternate free).cfg = vo.cfg := rfl
@[simp] theorem Voice.takeAlternate_eng (free : Nat) : (vo.takeAlternate free).eng = vo.eng := rfl
@[simp] theorem Voice.withClaim_cfg (c : LocalClaim) : (vo.withClaim c).cfg = vo.cfg := rfl
@[simp] theorem Voice.withClaim_eng (c : LocalClaim) : (vo.withClaim c).eng = vo.eng := rfl
@[simp] theorem Voice.withCandidates_cfg (key : Key) (held : Nat) (rules : Vector IntervalRule 4) :
    (vo.withCandidates key held rules).cfg = vo.cfg := rfl
@[simp] theorem Voice.withCandidates_eng (key : Key) (held : Nat) (rules : Vector IntervalRule 4) :
    (vo.withCandidates key held rules).eng = vo.eng := rfl
@[simp] theorem Voice.withoutCandidates_cfg : vo.withoutCandidates.cfg = vo.cfg := rfl
@[simp] theorem Voice.withoutCandidates_eng : vo.withoutCandidates.eng = vo.eng := rfl
@[simp] theorem Voice.withShift_cfg (pair : VoicedPair) (cents : Int) : (vo.withShift pair cents).cfg = vo.cfg := rfl

end Sys2Proof.Machine
end

