-- ==== Sys2Proof/Laws/Ops.lean ====
section
/-! SUPPORT. One lemma for each shared operation that says once everything it can do, for proofs to cite instead of
unfolding it. -/

namespace Sys2Proof.Machine

/-! ## Held resets -/

/-- Released, an effect happens. -/
theorem whenReleased_of_released (f : State → State) (s : State) (h : s.sc.resetHeld = false) :
    whenReleased f s = .next (f s) := by simp [whenReleased, h]

/-- While a reset is held, nothing happens. -/
theorem whenReleased_of_held (f : State → State) (s : State) (h : s.sc.resetHeld = true) : whenReleased f s = .next s := by
  simp [whenReleased, h]

/-- What an effect can leave: what it does, or the state as it was. -/
theorem whenReleased_cases {f : State → State} {s t : State} (h : whenReleased f s = .next t) :
    (s.sc.resetHeld = false ∧ t = f s) ∨ (s.sc.resetHeld = true ∧ t = s) := by
  cases hr : s.sc.resetHeld <;> simp [whenReleased, hr] at h <;> simp [h]

/-- A reset is held exactly while a pin reset or a power-on reset is (R167). -/
theorem StateController.resetHeld_eq_false (c : StateController) :
    c.resetHeld = false ↔ c.pinHeld = false ∧ c.powerOnHeld = false := by simp [StateController.resetHeld]

/-- What a held reset leaves of the State Controller's reset fields, straps and start cause (R167). -/
theorem State.holdReset_sc (s : State) (pin power seen : Bool) :
    (s.holdReset pin power seen).sc.pinHeld = pin ∧ (s.holdReset pin power seen).sc.powerOnHeld = power
      ∧ (s.holdReset pin power seen).sc.powerOnSeen = seen ∧ (s.holdReset pin power seen).sc.station = s.sc.station
      ∧ (s.holdReset pin power seen).sc.solo = s.sc.solo ∧ (s.holdReset pin power seen).sc.cause = s.sc.cause :=
  ⟨rfl, rfl, rfl, rfl, rfl, rfl⟩

/-! ## The voice table -/

/-- A voice read after one voice was put back. -/
theorem State.setVoice_get (s : State) (v w : VoiceIx) (vo : Voice) :
    (s.setVoice v vo).voices[w] = if w = v then vo else s.voices[w] := by
  rcases eq_or_ne w v with rfl | h
  · simp
  · simp [h, Fin.val_inj, h.symm]

/-- A voice put back as it stood changes nothing. -/
theorem State.setVoice_self (s : State) (v : VoiceIx) : s.setVoice v s.voices[v] = s := by simp [State.setVoice]

/-- A voice read after every voice was changed. -/
theorem State.mapVoices_get (s : State) (f : VoiceIx → Voice → Voice) (v : VoiceIx) :
    (s.mapVoices f).voices[v] = f v s.voices[v] := by simp

/-- The link controller after an offer, when there is one. -/
def LinkController.offerSome (l : LinkController) : Option Entry → LinkController
  | some e => l.offer e
  | none => l

/-- An offer, when there is one, changes the link controller alone. -/
theorem State.offerSome_eq (s : State) (e : Option Entry) : s.offerSome e = { s with link := s.link.offerSome e } := by
  cases e <;> rfl

/-- Over distinct voices: each is put back and its offer made, in order; voices not in the list stand. -/
theorem State.foldVoices_spec (f : VoiceIx → Voice × Option Entry) (vs : List VoiceIx) (s : State) :
    vs.foldl (fun t v => (t.setVoice v (f v).1).offerSome (f v).2) s
      = { s with
          voices := Vector.ofFn fun w => if w ∈ vs then (f w).1 else s.voices[w]
          link := vs.foldl (fun l v => l.offerSome (f v).2) s.link } := by
  induction vs generalizing s with
  | nil =>
    simp
  | cons v rest ih =>
    rw [List.foldl_cons, ih, State.offerSome_eq]
    simp only [State.setVoice, List.foldl_cons, State.mk.injEq, true_and, and_true]
    ext i hi
    simp only [Vector.getElem_ofFn, List.mem_cons, Fin.getElem_fin, Vector.getElem_set]
    by_cases h1 : (⟨i, hi⟩ : VoiceIx) ∈ rest
    · simp [h1]
    · by_cases h2 : (⟨i, hi⟩ : VoiceIx) = v
      · subst h2; simp [h1]
      · have h3 : v.val ≠ i := fun h => h2 (Fin.ext h.symm)
        simp [h1, h2, h3]

/-- Over all eight voices: every voice is put back, and the offers are made in index order. -/
theorem State.foldAllVoices_spec (f : VoiceIx → Voice × Option Entry) (s : State) :
    (List.finRange 8).foldl (fun t v => (t.setVoice v (f v).1).offerSome (f v).2) s
      = { s with
          voices := Vector.ofFn fun w => (f w).1
          link := (List.finRange 8).foldl (fun l v => l.offerSome (f v).2) s.link } := by
  simpa using State.foldVoices_spec f (List.finRange 8) s

/-- Over all eight voices, each with the DROP its own event offers, if any (R76). -/
theorem State.foldPutVoice_spec (f : VoiceIx → Voice × Bool) (s : State) :
    (List.finRange 8).foldl (fun t v => t.putVoice v (f v)) s
      = { s with
          voices := Vector.ofFn fun w => (f w).1
          link := (List.finRange 8).foldl (fun l v => l.offerSome (if (f v).2 then some (.drop v) else none)) s.link } :=
  State.foldAllVoices_spec (fun v => ((f v).1, if (f v).2 then some (.drop v) else none)) s

/-! ## The transmit queue -/

/-- An offer changes the queue, the quiet count, the count of discarded entries and the place of the slot's entry alone; the
slot keeps its entry and its frame. -/
theorem LinkController.offer_frame (l : LinkController) (e : Entry) :
    ∃ queue slot quiet drops,
      l.offer e = { l with queue := queue, slot := slot, quietCount := quiet, queueDrops := drops }
        ∧ slot.map (·.frame) = l.slot.map (·.frame) ∧ slot.map (·.entry) = l.slot.map (·.entry) := by
  have after : ∀ (t : TxSlot) (i : Nat), (t.afterDiscard i).frame = t.frame ∧ (t.afterDiscard i).entry = t.entry := by
    intro t i; unfold TxSlot.afterDiscard; split <;> simp
  have full : ∀ q, ∃ queue slot drops,
      { l.overflow e 8 with quietCount := q }
          = { l with queue := queue, slot := slot, quietCount := q, queueDrops := drops }
        ∧ slot.map (·.frame) = l.slot.map (·.frame) ∧ slot.map (·.entry) = l.slot.map (·.entry) := by
    intro q
    by_cases h : e.rank < lowestRank l.queue
    · simp only [LinkController.overflow, h, if_true]
      refine ⟨_, _, _, rfl, ?_⟩
      cases l.slot <;> simp [after]
    · simp only [LinkController.overflow, h, if_false]
      exact ⟨_, _, _, rfl, rfl, rfl⟩
  unfold LinkController.offer
  split
  · split
    · exact ⟨_, _, _, _, rfl, rfl, rfl⟩
    · split
      · exact ⟨_, _, _, _, rfl, rfl, rfl⟩
      · split
        · obtain ⟨a, b, c, h⟩ := full 0
          exact ⟨a, b, _, c, h⟩
        · obtain ⟨a, b, c, h⟩ := full (l.overflow e 8).quietCount
          exact ⟨a, b, _, c, h⟩
  · exact ⟨_, _, _, _, rfl, rfl, rfl⟩

@[simp] theorem LinkController.offer_state (l : LinkController) (e : Entry) : (l.offer e).state = l.state := by
  obtain ⟨_, _, _, _, h, -⟩ := l.offer_frame e; rw [h]

@[simp] theorem LinkController.offer_receiver (l : LinkController) (e : Entry) : (l.offer e).receiver = l.receiver := by
  obtain ⟨_, _, _, _, h, -⟩ := l.offer_frame e; rw [h]

@[simp] theorem LinkController.offer_rxBytes (l : LinkController) (e : Entry) : (l.offer e).rxBytes = l.rxBytes := by
  obtain ⟨_, _, _, _, h, -⟩ := l.offer_frame e; rw [h]

@[simp] theorem LinkController.offer_leadCount (l : LinkController) (e : Entry) : (l.offer e).leadCount = l.leadCount := by
  obtain ⟨_, _, _, _, h, -⟩ := l.offer_frame e; rw [h]

@[simp] theorem LinkController.offer_keyCount (l : LinkController) (e : Entry) : (l.offer e).keyCount = l.keyCount := by
  obtain ⟨_, _, _, _, h, -⟩ := l.offer_frame e; rw [h]

@[simp] theorem LinkController.offer_lastVoiced (l : LinkController) (e : Entry) : (l.offer e).lastVoiced = l.lastVoiced := by
  obtain ⟨_, _, _, _, h, -⟩ := l.offer_frame e; rw [h]

@[simp] theorem LinkController.offer_stuckMonitor (l : LinkController) (e : Entry) :
    (l.offer e).stuckMonitor = l.stuckMonitor := by
  obtain ⟨_, _, _, _, h, -⟩ := l.offer_frame e; rw [h]

@[simp] theorem LinkController.offer_rxCrc (l : LinkController) (e : Entry) : (l.offer e).rxCrc = l.rxCrc := by
  obtain ⟨_, _, _, _, h, -⟩ := l.offer_frame e; rw [h]

@[simp] theorem LinkController.offer_echo (l : LinkController) (e : Entry) : (l.offer e).echo = l.echo := by
  obtain ⟨_, _, _, _, h, -⟩ := l.offer_frame e; rw [h]

@[simp] theorem LinkController.offer_slot_frame (l : LinkController) (e : Entry) :
    (l.offer e).slot.map (·.frame) = l.slot.map (·.frame) := by
  obtain ⟨_, _, _, _, h, h', -⟩ := l.offer_frame e; rw [h, h']

@[simp] theorem LinkController.offer_slot_entry (l : LinkController) (e : Entry) :
    (l.offer e).slot.map (·.entry) = l.slot.map (·.entry) := by
  obtain ⟨_, _, _, _, h, -, h'⟩ := l.offer_frame e; rw [h, h']

/-- Where no offer is taken the link controller stands (R104). -/
theorem LinkController.offer_of_not_taken (l : LinkController) (e : Entry) (h : l.state.takesOffers = false) :
    l.offer e = l := by simp [LinkController.offer, h]

/-- Whatever a fold of offers does to the link controller, it keeps what every offer keeps. -/
theorem LinkController.foldOffers_keeps {α β : Type} (g : LinkController → β)
    (hg : ∀ l e, g (LinkController.offer l e) = g l) (f : α → Option Entry) (xs : List α) (l : LinkController) :
    g (xs.foldl (fun l x => l.offerSome (f x)) l) = g l := by
  induction xs generalizing l with
  | nil => rfl
  | cons x rest ih =>
    rw [List.foldl_cons, ih]
    cases f x
    · rfl
    · exact hg _ _

/-! ## Runs of bits -/

/-- Bits read on top of a number shift it left by as many places. -/
theorem numberOfBits_from (bits : List Bool) (n : Nat) :
    bits.foldl (fun n b => 2 * n + b.toNat) n = n * 2 ^ bits.length + numberOfBits bits := by
  induction bits generalizing n with
  | nil => simp [numberOfBits]
  | cons b rest ih =>
    have h : numberOfBits (b :: rest) = (2 * 0 + b.toNat) * 2 ^ rest.length + numberOfBits rest := ih (2 * 0 + b.toNat)
    rw [List.foldl_cons, ih, List.length_cons, h, Nat.pow_succ]
    ring

/-- Two runs of bits one after the other. -/
theorem numberOfBits_append (a b : List Bool) : numberOfBits (a ++ b) = numberOfBits a * 2 ^ b.length + numberOfBits b := by
  rw [numberOfBits, List.foldl_append, numberOfBits_from]; rfl

/-- A run of bits by its most significant one. -/
theorem numberOfBits_cons (b : Bool) (rest : List Bool) :
    numberOfBits (b :: rest) = b.toNat * 2 ^ rest.length + numberOfBits rest := by
  have h := numberOfBits_append [b] rest
  have hb : numberOfBits [b] = b.toNat := by cases b <;> rfl
  rwa [hb] at h

/-- The low `n` bits of a word, most significant first, spell its value below 2^n. -/
theorem numberOfBits_getLsbD {w : Nat} (x : BitVec w) (n : Nat) :
    numberOfBits ((List.range n).reverse.map x.getLsbD) = x.toNat % 2 ^ n := by
  induction n with
  | zero => simp [numberOfBits, Nat.mod_one]
  | succ n ih =>
    rw [List.range_succ, List.reverse_append, List.map_append, numberOfBits_append, ih]
    simp [numberOfBits, Nat.mod_pow_succ, BitVec.getLsbD, Nat.testBit_eq_decide_div_mod_eq]
    rcases Nat.mod_two_eq_zero_or_one (x.toNat / 2 ^ n) with h | h <;> simp [h]
    omega

/-! ## Reads -/

/-- What the first half of a read does: the word captured, and the clears of a read-clear word (R158). -/
theorem State.beginRead_eq (addr : BitVec 6) (s : State) :
    s.beginRead addr = s.captureWord addr
      (if addr = 0x02 then some (.attn s.sc.causes) else if addr = 0x05 then some (.context true) else none) := by
  by_cases h2 : addr = 0x02
  · subst h2; rfl
  by_cases h5 : addr = 0x05
  · subst h5; rfl
  have hw : wordAt addr ≠ .attn ∧ wordAt addr ≠ .context := by revert addr; decide
  simp only [h2, h5, if_false]
  unfold State.beginRead
  split
  · exact absurd ‹_› hw.1
  · exact absurd ‹_› hw.2
  · rfl

/-! ## The receiver -/

/-- The eight bits of a byte, most significant first, are that byte's (R91). -/
theorem byteOfLevels_bits (b : Byte) : byteOfLevels ([7, 6, 5, 4, 3, 2, 1, 0].map b.getLsbD) = b := by
  rw [byteOfLevels, show [7, 6, 5, 4, 3, 2, 1, 0] = (List.range 8).reverse by decide, numberOfBits_getLsbD]
  apply BitVec.eq_of_toNat_eq
  simpa [byteOf] using b.isLt

/-- A level read changes the receiver and its bytes alone, and a taking that it ends leaves no byte behind (R92). -/
theorem LinkController.readLevel_frame (l : LinkController) (level : Bool) :
    ∃ receiver bytes, (l.readLevel level).1 = { l with receiver := receiver, rxBytes := bytes }
      ∧ ((l.readLevel level).2 ≠ none → bytes = [] ∧ receiver.isTaking = false) := by
  unfold LinkController.readLevel
  split
  · cases level
    · exact ⟨.taking [false], [], by simp⟩
    · exact ⟨l.receiver, l.rxBytes, by simp⟩
  · exact ⟨_, l.rxBytes, rfl, by simp⟩
  · split
    · unfold LinkController.readStop
      cases level
      · exact ⟨.waitIdle, [], by simp [LinkController.endTaking, Receiver.after, Receiver.isTaking]⟩
      · cases h : LinkFrame.ofBytes l.rxBytes with
        | none => exact ⟨.taking [true], l.rxBytes, by simp⟩
        | some f => exact ⟨.waitIdle (recessiveRun f.levels), [], by simp [LinkController.endTaking, Receiver.after, Receiver.isTaking]⟩
    · unfold LinkController.readGap
      split
      · exact ⟨.ready, [], by simp [LinkController.endTaking, Receiver.after, Receiver.isTaking]⟩
      · exact ⟨_, l.rxBytes, rfl, by simp⟩
    · unfold LinkController.readBit
      split
      · exact ⟨_, l.rxBytes, rfl, by simp⟩
      · exact ⟨_, _, rfl, by simp⟩

/-- Levels followed in parts are the levels followed at once (R92). -/
theorem LinkController.follow_append (a b : List Bool) (l : LinkController) : l.follow (a ++ b) = (l.follow a).follow b := by
  simp [LinkController.follow]

/-- A receiver that has begun to wait for idle takes no frame (R92). -/
@[simp] theorem Receiver.await_isTaking (r : Receiver) : r.await.isTaking = false := by
  cases r with
  | ready => rfl
  | taking _ => rfl
  | waitIdle n => by_cases h : idleRun ≤ n <;> simp [Receiver.await, Receiver.isTaking, h]

/-- Recessive levels leave a ready receiver ready (R92). -/
theorem State.readLevels_recessive (n : Nat) (s : State) (h : s.link.receiver = .ready) :
    (List.replicate n true).foldl (fun t level => t.readLevel level) s = s := by
  induction n with
  | zero => rfl
  | succ n ih =>
    rw [List.replicate_succ, List.foldl_cons]
    have hs : s.readLevel true = s := by simp [State.readLevel, LinkController.readLevel, h]
    rw [hs, ih]

/-! ## Context changes and the part state -/

/-- The key, the mode and the open-decision flag set together: without a change in the first two the flag alone can change,
and with one a context change is made of it (R51). -/
theorem State.setContext_cases (s : State) (key : Key) (mode : KeyMode) (openD : Bool) :
    (key = s.cu.key ∧ mode = s.cu.mode ∧ s.setContext key mode openD = { s with cu := { s.cu with openDecision := openD } })
      ∨ (¬(key = s.cu.key ∧ mode = s.cu.mode) ∧ s.setContext key mode openD
          = State.contextChange { s with cu := { s.cu with key := key, mode := mode, openDecision := openD } }) := by
  by_cases h : key = s.cu.key ∧ mode = s.cu.mode
  · exact .inl ⟨h.1, h.2, by simp [State.setContext, h.1, h.2]⟩
  · exact .inr ⟨h, if_neg h⟩

/-- What a context change leaves alone. -/
theorem State.contextChange_frame (s : State) :
    s.contextChange.ap = s.ap ∧ s.contextChange.inp = s.inp ∧ s.contextChange.hm = s.hm ∧ s.contextChange.pt = s.pt
      ∧ s.contextChange.cfg = s.cfg ∧ s.contextChange.peers = s.peers ∧ s.contextChange.bm = s.bm
      ∧ s.contextChange.pending = s.pending ∧ s.contextChange.sc.part = s.sc.part := by
  refine ⟨rfl, rfl, rfl, rfl, rfl, rfl, rfl, rfl, rfl⟩

/-- What setting the context leaves alone, changed or not. -/
theorem State.setContext_frame (s : State) (key : Key) (mode : KeyMode) (openD : Bool) :
    (s.setContext key mode openD).ap = s.ap ∧ (s.setContext key mode openD).inp = s.inp
      ∧ (s.setContext key mode openD).hm = s.hm ∧ (s.setContext key mode openD).pt = s.pt
      ∧ (s.setContext key mode openD).cfg = s.cfg ∧ (s.setContext key mode openD).peers = s.peers
      ∧ (s.setContext key mode openD).bm = s.bm ∧ (s.setContext key mode openD).pending = s.pending
      ∧ (s.setContext key mode openD).sc.part = s.sc.part ∧ (s.setContext key mode openD).link.state = s.link.state := by
  rcases s.setContext_cases key mode openD with ⟨-, -, h⟩ | ⟨-, h⟩ <;> rw [h]
  · exact ⟨rfl, rfl, rfl, rfl, rfl, rfl, rfl, rfl, rfl, rfl⟩
  · exact ⟨rfl, rfl, rfl, rfl, rfl, rfl, rfl, rfl, rfl, LinkController.offer_state _ _⟩

/-- An entry to LIVE: the part state and the entered flag, and the link only when it leaves LISTEN (R162, R102). -/
theorem State.enterLive_cases (s : State) :
    (s.sc.liveEntry = true ∨ s.link.state ≠ .listen)
        ∧ s.enterLive = { s with sc := { s.sc with part := .live, liveEntry := true } }
      ∨ (s.sc.liveEntry = false ∧ s.link.state = .listen
        ∧ ∃ link : LinkController, link.state = .active
          ∧ s.enterLive = { s with sc := { s.sc with part := .live, liveEntry := true }, link := link }) := by
  unfold State.enterLive
  by_cases h : s.sc.liveEntry = true
  · exact .inl ⟨.inl h, by simp [h]⟩
  · rw [Bool.not_eq_true] at h
    simp only [h, Bool.false_eq_true, if_false]
    by_cases hl : s.link.state = .listen
    · refine .inr ⟨trivial, hl, (State.linkFirstLive s).link, ?_, ?_⟩
      · simp [State.linkFirstLive, hl]
      · simp [State.linkFirstLive, hl, State.offerKey, State.offerHello, State.offer]
    · refine .inl ⟨.inr hl, ?_⟩
      unfold State.linkFirstLive
      split
      · exact absurd ‹_› hl
      · rfl

/-! ## Sounding states -/

/-- A voice taken to FADE is not sounding (R72). -/
@[simp] theorem Voice.toFade_sounding (vo : Voice) : vo.toFade.eng.state.sounding = false := rfl

/-- A voice without its claim has none, no decided note, and its flags and counts at 0 (R76). -/
theorem Voice.withoutClaim_plan (vo : Voice) :
    vo.withoutClaim.plan.claim = none ∧ vo.withoutClaim.plan.decided = none ∧ vo.withoutClaim.plan.onAlternate = false
      ∧ vo.withoutClaim.plan.freeCount = 0 ∧ vo.withoutClaim.plan.doubled = false := ⟨rfl, rfl, rfl, rfl, rfl⟩

end Sys2Proof.Machine
end

