-- ==== Sys2Proof/Tests/Slice0.lean ====
section
/-! SUPPORT. Tests: ill-formed terms that WellFormed refuses, values the manual works out or tabulates, and for every
statement with hypotheses a concrete state and operands that meet them. -/

namespace Sys2Proof.Tests

open Sys2Proof Sys2Proof.Machine

/-! ## WellFormed smoke -/

theorem test_wellFormed_refuses_listed_code : (Instr.unknownCode 0x08 0).wellFormed = false := by decide
theorem test_wellFormed_takes_unlisted_code : (Instr.unknownCode 0x09 0).wellFormed = true := by decide
theorem test_wellFormed_refuses_word_with_own_row : (Instr.writeWord 0x3F 0).wellFormed = false := by decide
theorem test_wellFormed_takes_other_word : (Instr.writeWord 0x3E 0).wellFormed = true := by decide
theorem test_wellFormed_refuses_complete_transaction : (Instr.transactionAbandoned [] (some (.count 24 0x800000))).wellFormed = false := by
  decide
theorem test_wellFormed_takes_fixed_bit_set : (Instr.transactionAbandoned [] (some (.count 24 0x010000))).wellFormed = true := by decide
theorem test_wellFormed_takes_short_transaction : (Instr.transactionAbandoned [] (some (.count 23 0))).wellFormed = true := by decide

/-! ## Values of the manual -/

/-- 11.1: the CRC of a DROP from station 5 for voice 0. -/
theorem test_crc_of_drop : crcOf 0x05 0 0 0 0 = 0xD4 := by decide +kernel
/-- 11.1: that frame built from its entry. -/
theorem test_drop_frame : dropFrame 5 0 = { b0 := 0x05, b1 := 0, b2 := 0, b3 := 0, b4 := 0, b5 := 0xD4 } := by decide +kernel
/-- R91: the levels of that frame's bytes 0 and 5 on the pair, 0x05 and 0xD4. -/
theorem test_levels_of_drop :
    (dropFrame 5 0).levels.take 10 = [false, false, false, false, false, false, true, false, true, true]
      ∧ (dropFrame 5 0).levels.drop 50 = [false, true, true, false, true, false, true, false, false, true] := by decide +kernel
/-- R91: one dominant station makes the pair dominant. -/
theorem test_pair_level : pairLevel [true, false, true] = false ∧ pairLevel [] = true := by decide
/-- R153: a slot is the sample from bit 31 on, then 8 zeros; ASDO is 0 from the 128th bit on. -/
theorem test_slot_format :
    slotBits 0x800001 = 0x80000100
      ∧ ([0, 1, 23, 24, 32, 127, 128].map
          ({ AudioPort.reset with sending := some (Vector.replicate 4 0x800001) } : AudioPort).asdo)
        = [true, false, true, false, true, false, false] := by decide
/-- 2, worked computation: P = 2314 gives L = 6412. -/
theorem test_lead_cents_of_e4 : leadCents 2314 = 6412 := by decide +kernel
/-- R26: the reset period gives 3949. -/
theorem test_lead_cents_of_reset : leadCents 9600 = 3949 := by decide +kernel
/-- 4, worked example: voice 0 of the held E4. -/
theorem test_period_voice0 : synthesisPeriod 2314 300 = 1946 := by decide +kernel
/-- 4, worked example: voice 1 of the held E4. -/
theorem test_period_voice1 : synthesisPeriod 2314 (-400) = 2915 := by decide +kernel
/-- 4, worked example: E4 in C MAJOR is degree 37, two steps up G4, three down B3. -/
theorem test_degrees_of_e4 :
    absoluteDegree Key.cMajor 64 = 37 ∧ noteOfDegree Key.cMajor 39 = 67 ∧ noteOfDegree Key.cMajor 34 = 59 := by decide
/-- R129, 11: ATTACK 4 takes 1057 samples. -/
theorem test_attack_step : (32767 + (VoiceConfig.reset 0).attackStep - 1) / (VoiceConfig.reset 0).attackStep = 1057 := by
  decide
/-- R149: code 128 is unity, 16384. -/
theorem test_gain_of_unity : gainFactor 128 = 16384 ∧ gainFactor 0 = 0 := by decide +kernel
/-- R139: a mark qualifies with exactly one period behind W, and one sample less does not do. -/
theorem test_mark_qualifies_at_period :
    (Mark.qualifies 1000 { pos := 900, period := 1600 }) = true ∧ (Mark.qualifies 999 { pos := 900, period := 1600 }) = false := by
  decide
/-- 11.4: the STATE word right after a power-on reset with station 0 and no solo strap. -/
theorem test_state_word_of_reset : State.reset.readWord 0x01 = 0x0A00 := by decide
/-- 11.4: VOICECFG of voice 7 after reset. -/
theorem test_voicecfg7_of_reset : State.reset.readWord 0x2A = 0x3C8F := by decide
/-- 11.4: RULE3 A after reset. -/
theorem test_rule3_of_reset : State.reset.readWord 0x16 = 0x037D := by decide
/-- R174: PRIMARY −16 is held as −14 and ALTERNATE 15 as +14. -/
theorem test_rule_fields_clamped :
    ((IntervalRule.resetTable[0]).withA 0x01F0).primary = -14 ∧ ((IntervalRule.resetTable[0]).withA 0x01F0).alternate = 14 := by
  decide

/-! ## States for the witnesses -/

/-- Released from a power-on reset and through INIT. -/
def inSetup : State := { State.reset with sc := { State.reset.sc with part := .setup } }

/-- SETUP with sync present. -/
def inSetupSynced : State := { inSetup with ap := { inSetup.ap with syncPresent := true, monitorTimer := true } }

/-- LIVE, sync present, the link ACTIVE. -/
def inLive : State :=
  { inSetupSynced with
    sc := { inSetup.sc with part := .live, liveEntry := true }
    link := { inSetup.link with state := .active, stuckMonitor := .dominant } }

/-- RSTN low. -/
def held : State := State.reset.assertPinReset

/-- A state with one voice replaced. -/
def withVoice (s : State) (v : VoiceIx) (plan : VoicePlan) (eng : Engine) : State :=
  s.setVoice v { s.voices[v] with plan := plan, eng := eng }

/-- The plan of a voice that holds a firm claim on G4, its primary. -/
def claimed : VoicePlan :=
  { VoicePlan.reset with
    primary := some 67, alternate := some 71, decided := some 67, claim := some { note := 67, firm := true, settle := 8 } }

/-- An engine in a state, its epoch counter at 0. -/
def engineIn (st : VoiceState) : Engine := { Engine.reset with state := st }

/-- CALIBRATE, one sample before the last. -/
def inCalibrate : State :=
  { inSetupSynced with
    sc := { inSetup.sc with part := .calibrate }
    inp := { inSetup.inp with measurement := some { length := 1024, sum := 5, taken := 1022 } } }

/-- LIVE with a queue of eight, the newest HELLO the lowest in rank. -/
def fullQueue : List Entry := [.drop 0, .drop 1, .drop 2, .claim 3 true 0 67, .claim 4 false 1 60, .lead, .key, .hello false]

/-- A frame of station 2 with a good CRC. -/
def goodFrame (b0 b1 b2 : Byte) : LinkFrame := frameOf b0 b1 b2 0 0

/-- LIVE with a record of station 2 at its limits: REFRESH 32, a claim of age 97 and a silence of 129. -/
def inLiveWithPeer : State :=
  { inLive with
    peers := inLive.peers.set 2 (some { PeerRecord.empty with
      silence := 129, claims := PeerRecord.empty.claims.set 0 (some { note := 60, firm := false, age := 97 }) }) }

/-- A frame of the DROP of voice 0 in the slot, with nothing queued. -/
def sending : State :=
  { inLive with link := { inLive.link with slot := some { entry := .lead, place := 0, frame := dropFrame 5 0 } } }

/-! ## Single steps the manual tells -/

/-- R162, R112, R110: the first GO with sync present queues a fresh HELLO and a KEY. -/
theorem test_go_first_entry :
    ∃ t, exec (.go 0) inSetupSynced = .next t ∧ t.sc.part = .live ∧ t.link.queue = [.hello true, .key] :=
  ⟨_, rfl, rfl, rfl⟩

/-- R162, 10.5: a GO with sync lost is refused and pulls no line, for REFUSED is masked after reset. -/
theorem test_go_refused :
    ∃ t, exec (.go 0) inSetup = .next t ∧ t.sc.part = .setup ∧ t.attnWord = 0x0740 ∧ t.attentionLow = false :=
  ⟨_, rfl, by decide, by decide, by decide⟩

/-- R129: enabling voice 0 takes it from OFF to IDLE, which VSTAT shows. -/
theorem test_enable_voice0 : ∃ t, exec (.enable 0x0001) inSetup = .next t ∧ t.readWord 0x38 = 0x0001 ∧ t.bm.mute = false :=
  ⟨_, rfl, by decide, by decide⟩

/-- R167: RSTN rises while a power-on reset is held: the part is held on, and released with cause POWER when that ends. -/
theorem test_overlapping_resets :
    ((held.powerOnRise.pinRelease { station := 3, solo := false }).sc.resetHeld = true)
      ∧ ((held.powerOnRise.pinRelease { station := 3, solo := false }).powerOnRelease { station := 4, solo := true }).sc
        = StateController.reset .power { station := 4, solo := true } := by decide

/-- R46, R51: PIN of D MAJOR in LIVE shows in CONTEXT with the flag set. -/
theorem test_pin_d_major : ∃ t, exec (.pin 0x02) inLive = .next t ∧ t.readWord 0x05 = 0x8042 :=
  ⟨_, rfl, by decide⟩

/-- R92: levels of the pair after an idle of 12 bits, a receiver waiting for idle before them. -/
def afterIdle (bits : List Bool) : LinkController :=
  (inLive.receiveFrame (.levels (List.replicate 12 true ++ bits))).link

/-- R92: a gap of two recessive bits after a stop bit is accepted, and the third byte is read; a dominant stop bit is a
framing error. -/
theorem test_receiver_takes_bytes :
    ((afterIdle ((dropFrame 5 0).levels.take 20 ++ [true, true] ++ ((dropFrame 5 0).levels.drop 20).take 10)).rxBytes
        = [0x05, 0x00, 0x00])
      ∧ (afterIdle ((dropFrame 5 0).levels.take 19 ++ [false])).rxCrc = 1 := by decide +kernel

/-- R92: after the stop bit of a byte of zeros, 11 more recessive bits make the frame short and 10 do not. -/
theorem test_receiver_short :
    ((afterIdle ((dropFrame 5 0).levels.take 20 ++ List.replicate 11 true)).rxCrc = 1)
      ∧ (afterIdle ((dropFrame 5 0).levels.take 20 ++ List.replicate 10 true)).rxCrc = 0 := by decide +kernel

/-- R92: the recessive bits that end a sent frame count for idle: after a DROP of station 5, whose CRC 0xD4 ends in two zeros,
11 more make the pair idle, and 10 do not. -/
theorem test_sent_frame_idle :
    (sending.link.frameSent.receiver = .waitIdle 1)
      ∧ (State.receiveFrame (.levels (List.replicate 11 true)) { sending with link := sending.link.frameSent }).link.receiver = .ready
      ∧ (State.receiveFrame (.levels (List.replicate 10 true)) { sending with link := sending.link.frameSent }).link.receiver
        = .waitIdle 11 := by decide +kernel

/-- R92, R98: a station that reads two recessive bits while it sends waits for ten more after a mismatch, and nine do not do. -/
theorem test_mismatch_idle :
    ((State.receiveFrame (.levels [false, true, true]) sending).link.slot = sending.link.slot)
      ∧ ((State.receiveFrame (.levels (List.replicate 10 true))
          { sending with link := (sending.link.follow [false, true, true]).echoMismatch }).link.receiver = .ready)
      ∧ (State.receiveFrame (.levels (List.replicate 9 true))
          { sending with link := (sending.link.follow [false, true, true]).echoMismatch }).link.receiver = .waitIdle 11 := by
  decide +kernel

/-- A station that has started a frame at an idle pair. -/
def starting : State := { sending with link := { sending.link with receiver := .ready } }

/-- R91, R92: a start bit read recessive leaves the pair idle; with no level read nothing is known of it. -/
theorem test_mismatch_at_start_bit :
    (starting.link.follow [true]).echoMismatch.receiver = .ready
      ∧ (starting.link.follow [false]).echoMismatch.receiver = .waitIdle ∧ starting.link.echoMismatch.receiver = .waitIdle := by
  decide +kernel

/-- R160: twelve recessive bits at the end of INIT are an idle pair, eleven are not. -/
theorem test_init_idle :
    (State.receiveFrame (.levels (false :: List.replicate 12 true)) .reset).initDone.link.receiver = .ready
      ∧ (State.receiveFrame (.levels (false :: List.replicate 11 true)) .reset).initDone.link.receiver = .waitIdle 11 := by
  decide +kernel

/-! ## Hypotheses that can be met -/

theorem test_witness_StepRunsFrontCommand : State.reset.pending = [] := by decide

theorem test_witness_ResetReleaseEntersInit :
    (State.reset.sc.resetHeld = false ∧ held.sc.resetHeld = true ∧ State.reset.sc.part = .init)
      ∧ (State.reset.sc.pinHeld = false ∧ held.sc.pinHeld = true)
      ∧ State.reset.sc.powerOnHeld = false ∧ State.reset.powerOnRise.sc.powerOnHeld = true := by decide

theorem test_witness_WordResetKeepsStraps :
    (inSetup.sc.resetHeld = false ∧ inSetup.sc.part ≠ .init) ∧ State.reset.sc.part = .init := by decide

theorem test_witness_HeldResetTakesNothing :
    held.sc.resetHeld = true ∧ Instr.frameSync ≠ .pinResetAsserted
      ∧ (∀ straps, Instr.frameSync ≠ .powerOnReset straps) ∧ ∀ straps, Instr.frameSync ≠ .pinReset straps :=
  ⟨by decide, by decide, fun _ => Instr.noConfusion, fun _ => Instr.noConfusion⟩

theorem test_witness_FrameSyncBeginsFrame :
    (inLive.sc.resetHeld = false ∧ inLive.ap.syncPresent = true ∧ ({ inLive.ap with hopCount := 255 } : AudioPort).hopCount < 256)
      ∧ State.reset.ap.syncPresent = false := by decide

/-- A state in which slot 0 is open, at a hop count. -/
def receiving (s : State) (n : Nat) : State := { s with ap := { s.ap with slotOpen := true, hopCount := n } }

theorem test_witness_SampleReceivedIsWritten :
    ((receiving inLive 254).sc.resetHeld = false ∧ (receiving inLive 254).ap.syncPresent = true
        ∧ (receiving inLive 254).ap.slotOpen = true ∧ (receiving inLive 254).ap.hopCount < 255)
      ∧ (inLive.inp.measurement = none ∧ inLive.bm.mute = true)
      ∧ (inCalibrate.inp.measurement = some { length := 1024, sum := 5, taken := 1022 } ∧ 1022 + 1 < 1024)
      ∧ 1024 ≤ 1023 + 1
      ∧ ((receiving inLive 255).ap.hopCount = 255 ∧ (receiving inLive 255).sc.part ≠ .init) := by decide

/-- A voice in HOLD whose timer is one sample short of its limit, slot 0 open at the 256th sample of a hop. -/
def holdEnding : State :=
  receiving (withVoice inLive 0 claimed { engineIn .hold with epoch := 9600, holdTimer := 12287 }) 255

theorem test_witness_SampleReceivedIsWritten_hold :
    holdEnding.sc.resetHeld = false ∧ holdEnding.ap.slotOpen = true ∧ holdEnding.ap.hopCount < 256
      ∧ (holdEnding.voices[(0 : VoiceIx)].sampleWork { holdEnding.renderEnv with holdLimit := holdEnding.cfg.holdLimit } true).drop
        = true
      ∧ (holdEnding.voices[(0 : VoiceIx)].sampleWork holdEnding.renderEnv false).drop = false := by decide

theorem test_witness_SampleReceivedIsWritten_voices :
    (∀ v : VoiceIx, inLive.voices[v].eng.state ≠ .hold) ∧ inLive.voices[(0 : VoiceIx)].eng.state = .off
      ∧ (withVoice inLive 0 claimed (engineIn .idle)).voices[(0 : VoiceIx)].eng.state = .idle := by decide

/-- A hop left due, for a frame sync, a sample or a sync loss; and the same count in INIT, where none falls. -/
theorem test_witness_hop_left_due :
    ((receiving inLive 256).sc.resetHeld = false ∧ (receiving inLive 256).ap.syncPresent = true
        ∧ (receiving inLive 256).ap.monitorTimer = true ∧ 256 ≤ (receiving inLive 256).ap.hopCount
        ∧ (receiving inLive 256).sc.part ≠ .init)
      ∧ (receiving State.reset.syncReturn.beginFrame 256).sc.part = .init
      ∧ (receiving State.reset.syncReturn.beginFrame 256).ap.syncPresent = true
      ∧ (receiving State.reset.syncReturn.beginFrame 256).ap.monitorTimer = true := by decide

theorem test_witness_HistoryReadsWhatWasWritten :
    HistoryMemory.wf { ring := [(4095, 5)], newest := 4094, fill := 4096 }
      ∧ HistoryMemory.held { ring := [(4095, 5)], newest := 4094, fill := 4096 } 0 = true
      ∧ (0 : SampleNumber) ≠ 4094 - 4095 := by
  refine ⟨?_, by decide, by decide⟩
  simp [HistoryMemory.wf, ringWf]

theorem test_witness_MixingFormsBusesAndClips :
    ({ AudioPort.reset with sending := some (Vector.replicate 4 1) } : AudioPort).sending = some (Vector.replicate 4 1)
      ∧ 127 = 32 * (3 : BusIx).val + 31 ∧ 31 < 32 ∧ 128 ≤ 128 ∧ AudioPort.reset.sending = none := by decide

theorem test_witness_SyncLossStopsEverything :
    (inLive.sc.resetHeld = false ∧ inLive.ap.syncPresent = true ∧ inLive.ap.monitorTimer = true ∧ inLive.ap.hopCount < 256)
      ∧ (withVoice inLive 0 claimed (engineIn .sound)).voices[(0 : VoiceIx)].eng.state.sounding = true
      ∧ inLive.voices[(7 : VoiceIx)].eng.state.sounding = false
      ∧ inLive.inp.measurement = none ∧ inCalibrate.inp.measurement = some { length := 1024, sum := 5, taken := 1022 } := by
  decide

theorem test_witness_FreeHopLeavesLeadAndVoices :
    inSetup.sc.resetHeld = false ∧ inSetup.ap.freeTimer = true ∧ inSetup.sc.part ≠ .init := by decide

theorem test_witness_SyncedHopTracksAndHandsOver :
    (receiving inLive 256).sc.resetHeld = false ∧ (receiving inLive 256).ap.syncPresent = true
      ∧ (receiving inLive 256).ap.hopCount = 256 ∧ (receiving inLive 256).sc.part ≠ .init
      ∧ (receiving inLive 256).pinExpires = false ∧ (receiving inLive 256).sc.part ≠ .standby := by decide

theorem test_witness_SyncedHopTracksAndHandsOver_pin :
    ({ inLiveWithPeer with cu := { inLiveWithPeer.cu with mode := .pinnedPeer 2 } } : State).pinExpires = true := by decide

theorem test_witness_SyncedHopTracksAndHandsOver_handOver :
    ((engineIn .off).state = .off ∧ (engineIn .idle).state = .idle ∧ (engineIn .fade).state = .fade
        ∧ (engineIn .onset).state = .onset ∧ (engineIn .hold).state = .hold)
      ∧ ((engineIn .idle).state.sounding = false ∧ (engineIn .sound).state.sounding = true)
      ∧ sourceMark 1000 [] = none ∧ sourceMark 1000 [{ pos := 900, period := 1600 }] = some { pos := 900, period := 1600 }
      ∧ (claimed.decided = some 67 ∧ claimed.claim = some { note := 67, firm := true, settle := 8 } ∧ 67 ≠ 71)
      ∧ (8 ≤ 7 + 1 ∧ 7 < 8) := by decide

theorem test_witness_MeasurementSetsOffset :
    (⟨1024, 5, 1024⟩ : Measurement).length ≤ (⟨1024, 5, 1024⟩ : Measurement).taken ∧ 0 < (⟨1024, 5, 1024⟩ : Measurement).length
      ∧ ({ inCalibrate.inp with measurement := some ⟨1024, 5, 1024⟩ } : InputStage).measurement = some ⟨1024, 5, 1024⟩ := by
  decide

/-- LIVE with one mark that qualifies. -/
def marked (s : State) : State :=
  { s with hm := { s.hm with newest := 1000, fill := 1000 }, pt := { s.pt with marks := [{ pos := 900, period := 1600 }] } }

theorem test_witness_EpochStartsGrainOrStarves :
    ((withVoice (marked inLive) 0 claimed (engineIn .sound)).voices[(0 : VoiceIx)].eng.runsEpochs = true
        ∧ (withVoice (marked inLive) 0 claimed (engineIn .sound)).voices[(0 : VoiceIx)].eng.epoch ≤ 0
        ∧ sourceMark (marked inLive).hm.newest (marked inLive).pt.marks = some { pos := 900, period := 1600 })
      ∧ sourceMark inLive.hm.newest inLive.pt.marks = none
      ∧ (withVoice inLive 0 claimed (engineIn .onset)).voices[(0 : VoiceIx)].eng.state = .onset
      ∧ (withVoice inLive 0 claimed (engineIn .hold)).voices[(0 : VoiceIx)].eng.state = .hold
      ∧ (withVoice inLive 0 claimed { engineIn .fade with envelope := 1 }).voices[(0 : VoiceIx)].eng.state = .fade
      ∧ 0 < (withVoice inLive 0 claimed { engineIn .fade with envelope := 1 }).voices[(0 : VoiceIx)].eng.envelope := by
  decide

theorem test_witness_SourceMarkIsNewestQualifying :
    (List.replicate 24 (⟨900, 1600⟩ : Mark)).length ≤ 24
      ∧ ([⟨900, 1600⟩] : List Mark) = [⟨900, 1600⟩].filter (fun m : Mark =>
          decide (distance m.pos 1156 ≤ 4095 - 2 * (((m.period + 8) / 16 : Nat) : Int)))
      ∧ (0 < min 100 (distance 900 1156).toNat ∧ min 100 (distance 900 901).toNat = 1)
      ∧ ((2 * 100 : Nat) : Int) ≤ distance 900 1156 ∧ distance 900 1156 < (((2 + 1) * 100 : Nat) : Int) := by decide

theorem test_witness_VoiceEndTestsAndHoldLimit_sample :
    (engineIn .onset).state ≠ .off ∧ (engineIn .onset).state ≠ .idle ∧ (engineIn .idle).state = .idle
      ∧ sourceMark 1000 [⟨900, 1600⟩] = some ⟨900, 1600⟩ ∧ sourceMark 999 [⟨900, 1600⟩] = none := by decide

theorem test_witness_VoiceEndTestsAndHoldLimit :
    ((withVoice inLive 0 claimed { engineIn .onset with envelope := 32767 }).voices[(0 : VoiceIx)].eng.envelope = 32767)
      ∧ ((withVoice inLive 0 VoicePlan.reset (engineIn .fade)).voices[(0 : VoiceIx)].eng.envelope = 0
        ∧ (withVoice inLive 0 VoicePlan.reset (engineIn .fade)).voices[(0 : VoiceIx)].eng.grains = [])
      ∧ 256 * (withVoice inLive 0 claimed { engineIn .hold with holdTimer := 12288 }).cfg.holdLimit
          ≤ (withVoice inLive 0 claimed { engineIn .hold with holdTimer := 12288 }).voices[(0 : VoiceIx)].eng.holdTimer := by
  decide

/-- A voice on its alternate whose free count has reached SETTLE, its soft claim due to firm and to be refreshed. -/
def onAlternate : State :=
  withVoice inLive 0
    { claimed with
      decided := some 71, claim := some { note := 71, firm := false, settle := 8 }, onAlternate := true, freeCount := 8
      refreshCount := 32 }
    (engineIn .sound)

theorem test_witness_ReturnFirmingAndRefresh_return :
    onAlternate.voices[(0 : VoiceIx)].plan.claim ≠ none ∧ onAlternate.voices[(0 : VoiceIx)].plan.onAlternate = true
      ∧ onAlternate.cfg.settle ≤ onAlternate.voices[(0 : VoiceIx)].plan.freeCount := by decide

theorem test_witness_ReturnFirmingAndRefresh :
    onAlternate.voices[(0 : VoiceIx)].plan.claim = some { note := 71, firm := false, settle := 8 }
      ∧ onAlternate.cfg.settle ≤ 8 ∧ onAlternate.cfg.refresh ≤ onAlternate.voices[(0 : VoiceIx)].plan.refreshCount := by decide

theorem test_witness_RowsWaitForTheirCondition_voice :
    inLive.voices[(0 : VoiceIx)].eng.runsEpochs = false
      ∧ 0 < ({ engineIn .sound with epoch := 1 } : Engine).epoch
      ∧ (∀ g ∈ inLive.voices[(0 : VoiceIx)].eng.grains, 0 < g.remaining)
      ∧ ({ engineIn .onset with envelope := 32766 } : Engine).envelope < 32767
      ∧ 0 < ({ engineIn .fade with envelope := 1 } : Engine).envelope
      ∧ ({ engineIn .hold with holdTimer := 12287 } : Engine).holdTimer < 256 * inLive.cfg.holdLimit
      ∧ inLive.voices[(0 : VoiceIx)].plan.claim = none ∧ 7 < inLive.cfg.settle ∧ 31 < inLive.cfg.refresh := by decide

theorem test_witness_RowsWaitForTheirCondition_part :
    (inLive.sc.resetHeld = false ∧ inLive.cu.held = none ∧ inLive.cu.decisionCount < 16 ∧ inLive.link.leadCount < 4
        ∧ inLive.link.keyCount < 128 ∧ inLive.link.quietCount < inLive.cfg.refresh ∧ inLive.inp.measurement = none
        ∧ inLive.sc.part ≠ .init ∧ inLive.peers[(2 : Station)] = none)
      ∧ (inLive.ap.hopCount < 256 ∧ inLive.ap.slotOpen = false ∧ State.reset.ap.syncPresent = false
        ∧ State.reset.sc.part = .init)
      ∧ (inLive.link.queue = [] ∧ inLive.link.slot = none ∧ sending.link.slot ≠ none
        ∧ (dropFrame 5 0).b0 ≤ (0x05 : Byte) ∧ inSetup.link.state ≠ .active ∧ inLive.link.state ≠ .stuck) := by decide

/-- Every count of a hop at its limit, with a held note and a voiced record. -/
def countsDue : State :=
  { inLive with
    cu := { inLive.cu with held := some 64, holdCount := 9, decisionCount := 16 }
    pt := { inLive.pt with record := { inLive.pt.record with voiced := true } }
    link := { inLive.link with leadCount := 4, keyCount := 128, quietCount := 32 } }

theorem test_witness_HopCountsBringTheirOffers :
    countsDue.sc.resetHeld = false ∧ countsDue.cu.held = some 64 ∧ 8 < countsDue.cu.holdCount
      ∧ (4 ≤ countsDue.link.leadCount ∧ countsDue.pt.record.voiced = true) ∧ 128 ≤ countsDue.link.keyCount
      ∧ countsDue.cfg.refresh ≤ countsDue.link.quietCount := by decide

/-- R42: all the weight on C: C MAJOR scores most beside its six neighbours. -/
def tallyC : Vector Nat 12 := #v[90, 0, 80, 0, 80, 70, 0, 80, 0, 80, 0, 70]

theorem test_witness_KeyDecisionNeedsMargin :
    (∀ k : Fin 12, score tallyC k ≤ score tallyC 0 + score tallyC 0 / 8)
      ∧ score tallyC 1 + score tallyC 1 / 8 < score tallyC 0
      ∧ (∀ k : Fin 12, score tallyC k ≤ score tallyC 0) ∧ (∀ k : Fin 12, k < 0 → score tallyC k < score tallyC 0) := by
  decide

theorem test_witness_DecisionHopDecidesInAuto :
    16 ≤ countsDue.cu.decisionCount ∧ countsDue.cu.mode = .auto ∧ countsDue.cu.decide = countsDue.cu.key
      ∧ ({ countsDue.cu with mode := .pinnedPeer 7 } : ContextUnit).mode ≠ .auto
      ∧ ({ countsDue.cu with tally := tallyC, key := { pc := 1, kind := .minor } } : ContextUnit).decide
          ≠ { pc := 1, kind := .minor } := by decide +kernel

/-- R43: with every weight alike all keys tie; a MAJOR current key wins, and otherwise the lowest pitch class. -/
theorem test_witness_DecisionHopDecidesInAuto_open :
    (∀ k : Fin 12, score (Vector.replicate 12 5) k ≤ score (Vector.replicate 12 5) 7)
      ∧ openDecisionKey (Vector.replicate 12 5) { pc := 7, kind := .major } = { pc := 7, kind := .major }
      ∧ openDecisionKey (Vector.replicate 12 5) { pc := 7, kind := .minor } = { pc := 0, kind := .major } := by decide +kernel

theorem test_witness_ContextChangeIsReported :
    (Key.cMajor = inLive.cu.key ∧ KeyMode.auto = inLive.cu.mode) ∧ KeyMode.pinnedLocal ≠ inLive.cu.mode := by decide

theorem test_witness_FoldingEndsInsideLane :
    12 ≤ 12 ∧ ((28 : Nat) : Int) ≤ 28 ∧ (40 : Int) ≤ (28 : Nat) + (12 : Nat) ∧ (27 : Int) < (28 : Nat)
      ∧ ((28 : Nat) : Int) + (12 : Nat) < 41 := by decide

theorem test_witness_ScaleStepsReturnToSnappedNote :
    Key.cMajor.kind.isTone (((64 : Int) - Key.cMajor.pc.val) % 12).toNat = true
      ∧ (ScaleKind.isTone .major 1 = false ∧ ScaleKind.isTone .major (1 - 1) = true)
      ∧ (ScaleKind.isTone .harmonic 10 = false ∧ ScaleKind.isTone .harmonic (10 - 1) = false)
      ∧ ((ScaleKind.major.tones[(2 : Fin 7)] : Nat) : Int) = (snappedNote Key.cMajor 64 - Key.cMajor.pc.val) % 12
      ∧ 12 ≤ (VoiceConfig.reset 0).laneSpan := by decide

/-- R57's table: in C MAJOR C#4 snaps to C4, and in C HARMONIC A#4 snaps up to B4. -/
theorem test_snap : snappedNote Key.cMajor 61 = 60 ∧ snappedNote { pc := 0, kind := .harmonic } 70 = 71 := by decide

theorem test_witness_CandidateLosesByCollision : (5 : Station) ≠ 2 := by decide

theorem test_witness_ContestOutcomes :
    ((inLive.voices[(0 : VoiceIx)]).plan.onAlternate = false ∧ (inLive.voices[(0 : VoiceIx)]).plan.freeCount = 0)
      ∧ (onAlternate.voices[(0 : VoiceIx)].plan.claim ≠ none ∧ onAlternate.voices[(0 : VoiceIx)].plan.onAlternate = true)
      ∧ 9 ≤ onAlternate.voices[(0 : VoiceIx)].plan.freeCount + 1
      ∧ onAlternate.voices[(0 : VoiceIx)].plan.freeCount + 1 < 10 := by decide

theorem test_witness_ContestOutcomes_sets :
    inLive.cu.held = none ∧ countsDue.cu.held = some 64
      ∧ inLiveWithPeer.soundingSet 64 = [.peerClaim 2 0 60 false, .ownLead 64] := by decide

theorem test_witness_IrrationalValuesRoundToNearest :
    (1 ≤ 40 ∧ 80 ≤ 2 * 40) ∧ inLive.hm.fill < 1200
      ∧ 1200 ≤ ({ inLive.hm with fill := 1200 } : HistoryMemory).fill := by decide

/-- R9's table: a hop of ±838,861 reads −20, one of ±4096 reads −67, and a single ±1 −144. -/
theorem test_levels :
    levelOf (256 * 838861 ^ 2) = -20 ∧ levelOf (256 * 4096 ^ 2) = -67 ∧ levelOf 1 = -144 ∧ levelOf (256 * 8388608 ^ 2) = 0 := by
  decide +kernel

/-- R22's table: a dip at lag 41 refined to the clamp gives 648. -/
theorem test_refined_period : refinePeriod 41 100 100 300 = 648 ∧ refinePeriod 599 300 100 100 = 9592 := by decide

theorem test_witness_ContestOutcomes_shift :
    (claimed.decided = some 67 ∧ VoicePlan.reset.decided = none ∧ (engineIn .sound).state.sounding = true)
      ∧ ((0 : Int) ≤ 90 ∧ (-45 : Int) ≤ 0) ∧ (0 < 50 ∧ (6000 : Int) + (50 : Nat) < 6200 ∧ (6200 : Int) < 6300 - (50 : Nat)) := by
  decide

theorem test_witness_CalibrateStartsMeasurement :
    (inSetupSynced.sc.resetHeld = false ∧ inSetupSynced.sc.part = .setup ∧ inSetupSynced.ap.syncPresent = true)
      ∧ inSetup.sc.part = .setup ∧ inSetup.ap.syncPresent = false := by decide

theorem test_witness_GoEntersLive :
    (inSetupSynced.sc.liveEntry = false ∧ inSetupSynced.link.state = .listen ∧ inSetupSynced.link.queue = [])
      ∧ ({ inSetupSynced.link with state := .solo } : LinkController).state = .solo := by decide

theorem test_witness_StandbyFadesAndWakeReturns :
    (inLive.sc.resetHeld = false ∧ inLive.sc.part = .live)
      ∧ ({ inLive.sc with part := .standby } : StateController).part = .standby ∧ inLive.sc.liveEntry = true := by decide

theorem test_witness_PinAndUnpinSetMode :
    inLive.sc.part = .live ∧ (0x1B : Byte).toNat % 16 < 12 ∧ KeyMode.pinnedPeer 2 ≠ .auto ∧ inLive.cu.mode = .auto := by decide

theorem test_witness_ClearZeroesCountersAlone :
    inCalibrate.sc.resetHeld = false ∧ inCalibrate.sc.part = .calibrate ∧ inLive.sc.part = .live := by decide

theorem test_witness_RefusalRaisesRefusedAlone :
    (knownCode 0x09 = false ∧ inLive.sc.part ≠ .init ∧ inLive.sc.part ≠ .setup ∧ inSetup.ap.syncPresent = false
        ∧ inSetup.sc.part ≠ .live ∧ inSetup.sc.part ≠ .standby ∧ inCalibrate.sc.part = .calibrate)
      ∧ 12 ≤ (0x0C : Byte).toNat % 16 ∧ (wordAt 0x2A).access = .setup ∧ (wordAt 0x37).access = .live := by decide

theorem test_witness_IgnoredTransactionsDoNothing :
    (25 ≠ 24 ∧ (0x010000 : BitVec 24).getLsbD 16 = true) ∧ State.reset.sc.part = .init
      ∧ (wordAt 0x3B).access = .readOnly ∧ (wordAt 0x05).access = .readClear ∧ (wordAt 0x3E).access = .unused := by decide

/-- LIVE with a transaction on the port's lines, its bits so far. -/
def onPort (bits : List Bool) : State := { inLive with sc := { inLive.sc with port := some bits } }

theorem test_witness_IgnoredTransactionsDoNothing_lines :
    inLive.sc.port = none ∧ (onPort []).sc.port = some []
      ∧ ([] : List Bool).length ≠ 7 ∧ (List.replicate 7 false).head? = some false
      ∧ (true :: [5, 4, 3, 2, 1, 0].map (0x02 : BitVec 6).getLsbD).length = 7
      ∧ ((List.replicate 8 true)[7]? = some true)
      ∧ (false :: [5, 4, 3, 2, 1, 0].map (0x2B : BitVec 6).getLsbD ++ false ::
          (List.range 16).reverse.map (0x0001 : Word16).getLsbD).length = 24 := by decide

/-- R157, R158, R173: a read of VOICED on the lines: the header captures the word, CSDO carries it from its bit 15 on, and the whole
changes nothing else. -/
theorem test_read_on_lines :
    ∃ t, exec (.transactionAbandoned (.fall :: ([true, false, false, true, true, false, true, false]).map .clock) none) inLive
        = .next t ∧ t.sc.shiftOut = 0x30A0 ∧ t.csdo true = some false
      ∧ ∃ u, exec (.transactionAbandoned (List.replicate 2 (.clock true)) none) t = .next u ∧ u.csdo true = some true :=
  ⟨_, rfl, by decide, by decide, _, rfl, by decide⟩

theorem test_witness_KeycfgWriteSetsContext :
    inSetup.sc.part = .setup ∧ (0x003F : Word16).getLsbD 6 = false ∧ (0x007F : Word16).getLsbD 6 = true := by decide

theorem test_witness_EnableWriteActsPerVoice :
    inLive.sc.part = .live ∧ inLive.voices[(0 : VoiceIx)].cfg.enabled = false ∧ (0x0001 : Word16).getLsbD 0 = true
      ∧ inLive.voices[(7 : VoiceIx)].cfg.enabled = (0x0001 : Word16).getLsbD 7
      ∧ ({ inLive.voices[(7 : VoiceIx)].cfg with enabled := true } : VoiceConfig).enabled = true := by decide

theorem test_witness_AttentionLineFollowsPendingAndMask : inSetup.sc.resetHeld = false ∧ inSetup.sc.part = .setup := by decide

theorem test_witness_ReadClearsWhatItCaptured :
    inLive.captureAttn.sc.capture = some (.attn 0) ∧ inLive.captureContext.sc.capture = some (.context true)
      ∧ ({ pc := 2, kind := .major } : Key) ≠ inLive.cu.key := by decide

theorem test_witness_ReadClearsWhatItCaptured_words :
    ((List.replicate 8 true).length = 8 + 0 ∧ (List.replicate 23 true).length = 8 + 15
        ∧ (List.replicate 8 true).head? = some true ∧ (List.replicate 7 true).length < 8 ∧ 24 ≤ (List.replicate 24 true).length)
      ∧ (0 ≤ inLive.pt.record.cents ∧ inLive.pt.record.cents < 65536 ∧ inLive.pt.record.confidence ≤ 255
        ∧ inLive.pt.record.level ≤ 0 ∧ inLive.link.rxCrc ≤ 255 ∧ inLive.link.echo ≤ 255 ∧ inLive.link.queueDrops ≤ 255
        ∧ -524288 ≤ inLive.inp.offset ∧ inLive.inp.offset ≤ 524287)
      ∧ ∀ b : BusIx, inLive.bm.buses[b].gain ≤ 255 ∧ inLive.bm.buses[b].clipCount ≤ 255 := by decide

theorem test_witness_WordWritesStoreClamped : inSetup.sc.resetHeld = false ∧ inSetup.sc.part = .setup := by decide

theorem test_witness_QueueTakesOffers :
    (inSetup.link.state ≠ .active ∧ inSetup.link.state ≠ .stuck) ∧ inLive.link.state = .active
      ∧ (fullQueue[5]? = some .lead ∧ Entry.sameClass .lead .lead = true)
      ∧ (∀ old ∈ fullQueue, old.sameClass (.drop 7) = false) ∧ fullQueue.length = 8
      ∧ (∀ old ∈ fullQueue.take 7 ++ [.lead], old.sameClass (.hello true) = false ∧ old.rank ≤ (Entry.hello true).rank)
      ∧ fullQueue = fullQueue.take 7 ++ .hello false :: [] ∧ (Entry.drop 7).rank < (Entry.hello false).rank
      ∧ (∀ old ∈ fullQueue.take 7, old.rank ≤ (Entry.hello false).rank) := by decide

/-- LIVE with that queue. -/
def queueFull : State := { inLive with link := { inLive.link with queue := fullQueue, receiver := .ready } }

theorem test_witness_StartFrameServesHighestOldest :
    queueFull.sc.resetHeld = false ∧ queueFull.link.state = .active ∧ queueFull.link.queue ≠ [] ∧ queueFull.link.slot = none
      ∧ queueFull.link.receiver ≠ .taking := by decide

theorem test_witness_ArbitrationLossRestoresQueue :
    queueFull.queueOk ∧ queueFull.startFrame.link.slot.map (fun x : TxSlot => x.frame.b0) = some 0
      ∧ (State.startFrame { queueFull with link := { queueFull.link with queue := [.lead] } }).link.slot.map
          (fun x : TxSlot => decide (0x0F < x.frame.b0)) = some true := by
  refine ⟨?_, by decide, by decide⟩
  simp only [State.queueOk]
  decide

theorem test_witness_FrameEndsEmptySlot_full :
    (∀ old ∈ fullQueue, old.sameClass (.claim 7 true 0 67) = false) ∧ fullQueue.length = 8
      ∧ fullQueue = fullQueue.take 7 ++ .hello false :: []
      ∧ (Entry.claim 7 true 0 67).rank < (Entry.hello false).rank
      ∧ (∀ old ∈ fullQueue.take 7, old.rank ≤ (Entry.hello false).rank) := by decide

theorem test_witness_FrameEndsEmptySlot :
    sending.link.slot = some { entry := .lead, place := 0, frame := dropFrame 5 0 } ∧ (0x04 : Byte) < (dropFrame 5 0).b0
      ∧ (∀ old ∈ sending.link.queue, old.sameClass .lead = false) ∧ sending.link.queue.length < 8
      ∧ fullQueue[5]? = some .lead
      ∧ (∀ old ∈ fullQueue.take 7 ++ [.drop 7], old.sameClass (.hello false) = false
          ∧ old.rank ≤ (Entry.hello false).rank) := by decide +kernel

theorem test_witness_ReceiverDiscardsAndFindsDuplicates :
    (inLive.sc.part ≠ .init ∧ inLive.link.state ≠ .solo ∧ inLive.link.slot = none)
      ∧ (goodFrame 0x05 0 0).b5 = 0xD4
      ∧ ((goodFrame 0x28 0 0).b5 = crcOf 0x28 0 0 0 0 ∧ 5 ≤ (goodFrame 0x28 0 0).b0.toNat / 8)
      ∧ ((goodFrame 0x20 0 0).b0.toNat / 8 ≤ 4 ∧ (goodFrame 0x20 0 0).b0.toNat % 8 = inLive.sc.station.val) := by decide +kernel

theorem test_witness_GoodFrameUpdatesRecord :
    (goodFrame 0x02 7 0).kind = 0 ∧ (goodFrame 0x0A 7 67).kind = 1 ∧ (goodFrame 0x12 0x80 0).kind = 2
      ∧ (goodFrame 0x1A 0 0).kind = 3 ∧ (goodFrame 0x22 2 0).kind = 4 ∧ (goodFrame 0x22 2 0).b1.getLsbD 0 = false
      ∧ (goodFrame 0x22 1 0).b1.getLsbD 0 = true := by decide

theorem test_witness_GoodFrameReachesPeerTable :
    (goodFrame 0x22 1 0).b5 = crcOf 0x22 1 0 0 0 ∧ (goodFrame 0x22 1 0).kind ≤ 4
      ∧ (goodFrame 0x22 1 0).station ≠ inLive.sc.station ∧ inLive.peers[(goodFrame 0x22 1 0).station] = none
      ∧ inLiveWithPeer.peers[(goodFrame 0x1A 1 0).station] ≠ none ∧ (goodFrame 0x1A 1 0).kind = 3
      ∧ inLive.peers[(goodFrame 0x1A 1 0).station] = none
      ∧ inLive.link.receiver = .waitIdle ∧ (afterIdle []).receiver = .ready
      ∧ (State.reset.link.receiver = .waitIdle ∧ State.reset.link.state ≠ .solo ∧ State.reset.sc.part = .init)
      ∧ (starting.link.receiver = .ready ∧ starting.link.slot ≠ none ∧ starting.link.state ≠ .solo)
      ∧ (afterIdle ((dropFrame 5 0).levels.take 19)).receiver = .taking
      ∧ (afterIdle ((dropFrame 5 0).levels.take 20 ++ List.replicate 10 true)).receiver = .taking (List.replicate 11 true)
      ∧ (afterIdle ((dropFrame 5 0).levels.take 20 ++ List.replicate 10 true)).rxBytes.getLast? = some 0
      ∧ recessiveRun (byteLevels 0) + 10 + 1 = 12 := by decide +kernel

theorem test_witness_KeyFrameAdoptsOrReleasesPin :
    (11 < ({ pc := 12, kind := 0, pinned := true } : KeyReport).pc)
      ∧ (({ pc := 11, kind := 3, pinned := true } : KeyReport).pc < 12 ∧ inLive.cu.mode ≠ .pinnedLocal)
      ∧ ({ inLive.cu with mode := .pinnedPeer 2 } : ContextUnit).mode = .pinnedPeer 2 ∧ inLive.cu.mode ≠ .pinnedPeer 2 := by
  decide

theorem test_witness_AgeingOfPeerTable :
    inLive.peers[(2 : Station)] = none ∧ (inLiveWithPeer.peers[(2 : Station)].map (·.silence)) = some 129
      ∧ min (4 * inLive.cfg.refresh) 255 < 128 + 1 ∧ 127 + 1 ≤ min (4 * inLive.cfg.refresh) 255 := by decide

theorem test_witness_AgeLimitsRemove :
    (inLiveWithPeer.peers[(2 : Station)].bind fun r => r.claims[(0 : VoiceIx)].map (·.age)) = some 97
      ∧ 3 * inLiveWithPeer.cfg.refresh < 97 ∧ min (4 * inLiveWithPeer.cfg.refresh) 255 < 129
      ∧ inLiveWithPeer.cu.mode ≠ .pinnedPeer 2
      ∧ ({ inLiveWithPeer.cu with mode := .pinnedPeer 2 } : ContextUnit).mode = .pinnedPeer 2 := by decide

theorem test_witness_StuckAndReturnToActive :
    (inLive.link.state = .active ∧ inLive.link.slot = none)
      ∧ ({ inLive.link with state := .stuck } : LinkController).state = .stuck := by decide

theorem test_witness_BuiltFrameReadsBack :
    (∀ n, (some 127 : Option Nat) = some n → 1 ≤ n ∧ n ≤ 127) ∧ inLive.pt.record.confidence ≤ 255
      ∧ ∀ v firm rule note, Entry.claim 7 true 3 255 = .claim v firm rule note → note ≤ 255 := by
  refine ⟨?_, by decide, ?_⟩
  · rintro n ⟨⟩; decide
  · rintro v firm rule note ⟨⟩; decide

/-- Two sounding voices on one note, the higher one doubled, a queue, and a frame sync to come. -/
def busy : State :=
  { withVoice (withVoice queueFull 0 claimed (engineIn .sound)) 1 { claimed with doubled := true } (engineIn .hold) with
    pending := [.frameSync] }

theorem test_busy_steps : ∃ t, step busy = .next t ∧ t.ap.slotOpen = true := ⟨_, rfl, rfl⟩

theorem test_witness_StepKeepsHistory : busy.historyOk := by decide
theorem test_witness_StepKeepsQueue : busy.queueOk := by simp only [State.queueOk]; decide
theorem test_witness_StepKeepsClaims_voices : ∀ v : VoiceIx, busy.voices[v].claimOk busy.cfg.settle := by decide
theorem test_witness_StepKeepsClaims_rest :
    busy.sc.part = .live ∧ (2 ≤ busy.cfg.settle ∧ busy.cfg.settle ≤ 32)
      ∧ busy.inp.measurement.isSome = decide (busy.sc.part = .calibrate) := by decide
theorem test_witness_StepKeepsOwnClaimsApart :
    busy.claimsApart ∧ busy.voices[(0 : VoiceIx)].clashes false busy.voices[(1 : VoiceIx)] = true := by decide
theorem test_witness_StepKeepsOwnRecordAbsent : inLiveWithPeer.peersOk := by decide
theorem test_witness_StepKeepsRanges : busy.rangesOk := by decide
theorem test_witness_StepKeepsRanges_settings : busy.settingsOk := by decide
theorem test_witness_StepKeepsRanges_counts : busy.countsOk := by decide
theorem test_witness_StepKeepsRanges_peers : inLiveWithPeer.countsOk := by decide
theorem test_witness_SetupWordsChangeOnlyInSetup : busy.sc.part ≠ .setup := by decide
theorem test_witness_LiveIsLeftOnlyByReset : busy.inp.measurement = none ∧ busy.sc.part = .live := by decide

end Sys2Proof.Tests
end

section
/-! PROOFS. The values of `Arith` that are decided by comparing whole numbers, each tied to its exact value: the level
(R9), the lead cents (R25), the synthesis period (R66) and the gain factor (R149). -/

namespace Sys2Proof.Machine

/-! ## The search bit by bit -/

/-- The search ends at a number that passes its test and whose successor fails it: the test holds at the lower end of the
interval searched and fails at its upper end, and each bit halves the interval. -/
theorem greatest_spec (test : Nat → Bool) (bits acc : Nat) (hlo : test acc = true) (hhi : test (acc + 2 ^ bits) = false) :
    test (greatest test bits acc) = true ∧ test (greatest test bits acc + 1) = false := by
  induction bits generalizing acc with
  | zero => exact ⟨hlo, hhi⟩
  | succ bits ih =>
    rw [greatest]
    split
    case isTrue hmid =>
      refine ih _ hmid ?_
      rwa [add_assoc, ← two_mul, ← pow_succ']
    case isFalse hmid => exact ih _ hlo (by simpa using hmid)

/-- Half the greatest number below an exact value, rounded up: where n ^ k × a ≤ b says that n is at most the exact value v,
the result r is v / 2 to nearest, 2r − 1 ≤ v < 2r + 1. -/
theorem nearest_of_greatest (k a b bits r : Nat) (hk : k ≠ 0) (hhi : b < (2 ^ bits) ^ k * a)
    (hr : r = (greatest (fun n => n ^ k * a ≤ b) bits 0 + 1) / 2) :
    (2 * r - 1) ^ k * a ≤ b ∧ b < (2 * r + 1) ^ k * a := by
  obtain ⟨hle, hlt⟩ := greatest_spec (fun n => n ^ k * a ≤ b) bits 0 (by simp [hk]) (by simpa using hhi)
  simp only [decide_eq_true_eq, decide_eq_false_iff_not, not_le] at hle hlt
  set g := greatest (fun n => n ^ k * a ≤ b) bits 0
  constructor
  · calc (2 * r - 1) ^ k * a ≤ g ^ k * a := by gcongr; omega
      _ ≤ b := hle
  · calc b < (g + 1) ^ k * a := hlt
      _ ≤ (2 * r + 1) ^ k * a := by gcongr; omega

/-- R66: the synthesis period is P × 2^(−Δ / 1200) to nearest. -/
theorem synthesisPeriod_nearest (p : Nat) (d : Int) (hp : p ≤ 9600) (hlo : -1900 ≤ d) :
    (2 * synthesisPeriod p d - 1) ^ 1200 * 2 ^ d.toNat ≤ (2 * p) ^ 1200 * 2 ^ (-d).toNat
    ∧ (2 * p) ^ 1200 * 2 ^ (-d).toNat < (2 * synthesisPeriod p d + 1) ^ 1200 * 2 ^ d.toNat := by
  refine nearest_of_greatest 1200 _ _ 17 _ (by norm_num) ?_ rfl
  calc (2 * p) ^ 1200 * 2 ^ (-d).toNat ≤ (2 ^ 15) ^ 1200 * 2 ^ 1900 := by gcongr <;> omega
    _ < (2 ^ 17) ^ 1200 * 1 := by
      rw [← pow_mul, ← pow_mul, ← pow_add, mul_one]
      exact pow_lt_pow_right₀ (by norm_num) (by norm_num)
    _ ≤ (2 ^ 17) ^ 1200 * 2 ^ d.toNat := by gcongr; exact Nat.one_le_two_pow

/-- R149: code 0 is off. -/
theorem gainFactor_zero : gainFactor 0 = 0 := rfl

/-- R149: the gain factor of a code c is 16384 × 10^((c − 128) / 40) to nearest. -/
theorem gainFactor_nearest (c : Nat) (hlo : 1 ≤ c) (hhi : c ≤ 152) :
    (2 * gainFactor c - 1) ^ 40 * 10 ^ 128 ≤ 32768 ^ 40 * 10 ^ c
    ∧ 32768 ^ 40 * 10 ^ c < (2 * gainFactor c + 1) ^ 40 * 10 ^ 128 := by
  refine nearest_of_greatest 40 _ _ 17 _ (by norm_num) ?_ (by rw [gainFactor, if_neg (by omega)])
  calc 32768 ^ 40 * 10 ^ c ≤ 32768 ^ 40 * 10 ^ 152 := by gcongr; norm_num
    _ < (2 ^ 17) ^ 40 * 10 ^ 128 := by norm_num

/-! ## The lead cents -/

/-- The floor of the logarithm of a quotient of 1 or more, as an inequality between whole numbers. -/
theorem log2_div_spec (n d : Nat) (hd : 0 < d) (hn : d ≤ n) :
    2 ^ Nat.log2 (n / d) * d ≤ n ∧ n < 2 ^ (Nat.log2 (n / d) + 1) * d := by
  have hq : n / d ≠ 0 := (Nat.div_pos hn hd).ne'
  exact ⟨(Nat.le_div_iff_mul_le hd).1 (Nat.log2_self_le hq), (Nat.div_lt_iff_lt_mul hd).1 Nat.lt_log2_self⟩

/-- R25: the ratio whose logarithm the lead cents take is 1 or more over the whole range of periods. -/
theorem leadRatio_le (p : Nat) (hp : p ≤ 9600) : (11 * p) ^ 2400 ≤ 19200 ^ 2400 * 2 ^ 9600 := by
  rw [show 9600 = 4 * 2400 from rfl, pow_mul, ← mul_pow]
  exact pow_le_pow_left₀ (Nat.zero_le _) (by omega) 2400

/-- R25: the lead cents fall as the period grows. -/
theorem leadCents_antitone {p q : Nat} (hp : 1 ≤ p) (hpq : p ≤ q) : leadCents q ≤ leadCents p := by
  have hlog : Nat.log2 (19200 ^ 2400 * 2 ^ 9600 / (11 * q) ^ 2400) ≤ Nat.log2 (19200 ^ 2400 * 2 ^ 9600 / (11 * p) ^ 2400) := by
    rw [Nat.log2_eq_log_two, Nat.log2_eq_log_two]
    exact Nat.log_mono_right (Nat.div_le_div_left (by gcongr) (by positivity))
  rw [leadCents, leadCents]
  generalize Nat.log2 (19200 ^ 2400 * 2 ^ 9600 / (11 * q) ^ 2400) = eq at *
  generalize Nat.log2 (19200 ^ 2400 * 2 ^ 9600 / (11 * p) ^ 2400) = ep at *
  omega

/-- R25: the lead cents of every period of the tracker lie between those of its longest and its shortest period. -/
theorem leadCents_range (p : Nat) (hlo : 640 ≤ p) (hhi : p ≤ 9600) : 3949 ≤ leadCents p ∧ leadCents p ≤ 8637 := by
  have hlong : leadCents 9600 = 3949 := by decide +kernel
  have hshort : leadCents 640 = 8637 := by decide +kernel
  exact ⟨hlong ▸ leadCents_antitone (by omega) hhi, hshort ▸ leadCents_antitone (by norm_num) hlo⟩

/-- R25: what a result of the final halving says of the floor of the logarithm it was formed from. -/
theorem halved_spec (e l : Nat) (h : (13801 + (e : Int) - 9600) / 2 = l) : 2 * l ≤ 4201 + e ∧ 4201 + (e + 1) ≤ 2 * l + 2 := by
  omega

/-- R25: the lead cents l are 6900 + 1200 × log2(19200 / (11 × P)) to nearest, halves up: 2l ≤ 13801 + 2400 × log2(…) < 2l + 2. -/
theorem leadCents_nearest (p l : Nat) (hlo : 640 ≤ p) (hhi : p ≤ 9600) (hl : leadCents p = l) :
    2 ^ (2 * l) * (11 * p) ^ 2400 ≤ 2 ^ 13801 * 19200 ^ 2400
    ∧ 2 ^ 13801 * 19200 ^ 2400 < 2 ^ (2 * l + 2) * (11 * p) ^ 2400 := by
  obtain ⟨hdown, hup⟩ := halved_spec _ l hl
  obtain ⟨hle, hlt⟩ := log2_div_spec _ _ (by positivity) (leadRatio_le p hhi)
  generalize Nat.log2 (19200 ^ 2400 * 2 ^ 9600 / (11 * p) ^ 2400) = e at *
  have hsplit : (2 : Nat) ^ 13801 * 19200 ^ 2400 = 2 ^ 4201 * (19200 ^ 2400 * 2 ^ 9600) := by
    rw [mul_left_comm, ← pow_add, mul_comm]
  rw [hsplit]
  constructor
  · calc 2 ^ (2 * l) * (11 * p) ^ 2400 ≤ 2 ^ (4201 + e) * (11 * p) ^ 2400 :=
        Nat.mul_le_mul_right _ (Nat.pow_le_pow_right two_pos hdown)
      _ = 2 ^ 4201 * (2 ^ e * (11 * p) ^ 2400) := by rw [pow_add, mul_assoc]
      _ ≤ 2 ^ 4201 * (19200 ^ 2400 * 2 ^ 9600) := Nat.mul_le_mul_left _ hle
  · calc 2 ^ 4201 * (19200 ^ 2400 * 2 ^ 9600) < 2 ^ 4201 * (2 ^ (e + 1) * (11 * p) ^ 2400) :=
          Nat.mul_lt_mul_of_pos_left hlt (by positivity)
      _ = 2 ^ (4201 + (e + 1)) * (11 * p) ^ 2400 := by rw [← mul_assoc, ← pow_add]
      _ ≤ 2 ^ (2 * l + 2) * (11 * p) ^ 2400 := Nat.mul_le_mul_right _ (Nat.pow_le_pow_right two_pos hup)

/-! ## The level -/

/-- R9: the level lies within −144 to 0. -/
theorem levelOf_range (x : Nat) : -144 ≤ levelOf x ∧ levelOf x ≤ 0 := by
  rw [levelOf]
  split
  case h_1 n hn =>
    have := List.mem_range.1 (List.mem_of_find?_eq_some hn)
    omega
  case h_2 => omega

/-- R9: above the lower clamp, the level is −n or more exactly when the sum of squares reaches that many decibels. -/
theorem neg_le_levelOf_iff (x n : Nat) (hn : n < 144) :
    -(n : Int) ≤ levelOf x ↔ (256 * 8388607 ^ 2) ^ 10 ≤ x ^ 10 * 10 ^ n := by
  have up {a b : Nat} (hab : a ≤ b) : x ^ 10 * 10 ^ a ≤ x ^ 10 * 10 ^ b := by gcongr; norm_num
  rw [levelOf]
  generalize (256 * 8388607 ^ 2) ^ 10 = full
  split
  case h_1 m hm =>
    obtain ⟨hfull, -, hleast⟩ := List.find?_range_eq_some.1 hm
    simp only [decide_eq_true_eq, Bool.not_eq_true', decide_eq_false_iff_not] at hfull hleast
    constructor
    · intro h
      exact hfull.trans (up (by omega))
    · intro h
      have : ¬ n < m := fun hnm => hleast n hnm h
      omega
  case h_2 hnone =>
    have := List.find?_range_eq_none.1 hnone n (by omega)
    simp only [Bool.not_eq_true', decide_eq_false_iff_not] at this
    constructor
    · omega
    · intro h
      exact absurd h this

end Sys2Proof.Machine
end

section
/-! PROOFS. The Hann window (R141): its values at the start, the half and the mark, its symmetry, and how near it comes to
the exact window. -/

namespace Sys2Proof.Machine

/-! ## The parts of the window -/

/-- At the angle 0 only the first term of the series is left. -/
theorem cosScaled_zero (pm : Nat) : cosScaled 0 pm = 2 ^ 128 := by
  simp [cosScaled, cosSeries]

/-- R141: the window before its half, from the cosine of the angle itself. -/
theorem hann_of_lt_half {pm j : Nat} (h : 2 * j < pm) :
    hann pm j = roundHalfUp (32767 * (2 ^ 128 - cosScaled j pm)) (2 ^ 129) := by
  simp only [hann, if_pos (show j ≤ pm by omega), if_neg (show ¬ 2 * j = pm by omega), if_pos h]

/-- R141: the window from its half to the mark, from the cosine of the angle left to the mark. -/
theorem hann_of_half_lt {pm j : Nat} (h : pm < 2 * j) (hj : j ≤ pm) :
    hann pm j = roundHalfUp (32767 * (2 ^ 128 + cosScaled (pm - j) pm)) (2 ^ 129) := by
  simp only [hann, if_pos hj, if_neg (show ¬ 2 * j = pm by omega), if_neg (show ¬ 2 * j < pm by omega)]

/-- R141: at the half itself the value 16383.5 is rounded up. -/
theorem hann_half (m : Nat) : hann (2 * m) m = 16384 := by
  simp only [hann, if_pos (show m ≤ 2 * m by omega), if_true]

/-- R141: the window is 0 at its start. -/
theorem hann_start {pm : Nat} (hpm : 1 ≤ pm) : hann pm 0 = 0 := by
  rw [hann_of_lt_half (by omega), cosScaled_zero]
  norm_num [roundHalfUp]

/-- R141: the window is 32767 at the mark. -/
theorem hann_mark {pm : Nat} (hpm : 1 ≤ pm) : hann pm pm = 32767 := by
  rw [hann_of_half_lt (by omega) le_rfl, Nat.sub_self, cosScaled_zero]
  norm_num [roundHalfUp]

/-- R141: the window is symmetric about the mark. -/
theorem hann_symm {pm j : Nat} (hj : j ≤ pm) : hann pm (pm - j) = hann pm (pm + j) := by
  rcases Nat.eq_zero_or_pos j with rfl | hpos
  · rfl
  · simp only [hann, if_pos (show pm - j ≤ pm by omega), if_neg (show ¬ pm + j ≤ pm by omega),
      show 2 * pm - (pm + j) = pm - j by omega]

/-! ## The distance from the exact window -/

/-- The exact value of the Hann coefficient, before it is rounded (R141). -/
noncomputable def hannExact (pm k : Nat) : ℝ := 32767 * (1 - Real.cos (Real.pi * k / pm)) / 2

/-- The exact window is symmetric about the mark. -/
theorem hannExact_symm {pm k : Nat} (hpm : 1 ≤ pm) (hk : k ≤ 2 * pm) : hannExact pm (2 * pm - k) = hannExact pm k := by
  have hpm' : (pm : ℝ) ≠ 0 := by positivity
  have hang : Real.pi * ((2 * pm - k : Nat) : ℝ) / pm = 2 * Real.pi - Real.pi * k / pm := by
    push_cast [hk]
    field_simp
  rw [hannExact, hannExact, hang, Real.cos_two_pi_sub]

/-- Rounding 32767 × (2^128 + c) over 2^129 ends within a half and a millionth of 32767 × (1 + x) / 2 when c over 2^128 comes
within 10^−15 of x. -/
theorem hannRound_near (c : Int) (x : ℝ) (hc : |(c : ℝ) / 2 ^ 128 - x| ≤ 1 / 10 ^ 15) :
    |(roundHalfUp (32767 * (2 ^ 128 + c)) (2 ^ 129) : ℝ) - 32767 * (1 + x) / 2| ≤ 1 / 2 + 1 / 10 ^ 6 := by
  have hround := roundHalfUp_near (32767 * (2 ^ 128 + c)) (2 ^ 129) (by positivity)
  have hquot : ((32767 * (2 ^ 128 + c) : Int) : ℝ) / ((2 ^ 129 : Nat) : ℝ) - 32767 * (1 + x) / 2
      = 32767 / 2 * ((c : ℝ) / 2 ^ 128 - x) := by
    push_cast
    field_simp
    ring
  have hcos : |((32767 * (2 ^ 128 + c) : Int) : ℝ) / ((2 ^ 129 : Nat) : ℝ) - 32767 * (1 + x) / 2| ≤ 1 / 10 ^ 6 := by
    rw [hquot, abs_mul, abs_of_pos (by norm_num)]
    linarith
  exact (abs_sub_le _ _ _).trans (add_le_add hround hcos)

/-- R141: up to the mark the window lies within a half and a millionth of its exact value. -/
theorem hann_near_of_le {pm k : Nat} (hpm : 1 ≤ pm) (hk : k ≤ pm) : |(hann pm k : ℝ) - hannExact pm k| ≤ 1 / 2 + 1 / 10 ^ 6 := by
  have hpm' : (pm : ℝ) ≠ 0 := by positivity
  rw [hannExact, sub_eq_add_neg 1]
  rcases lt_trichotomy (2 * k) pm with hlt | rfl | hgt
  · rw [hann_of_lt_half hlt, sub_eq_add_neg]
    refine hannRound_near _ _ ?_
    have hneg : ((-cosScaled k pm : Int) : ℝ) / 2 ^ 128 - -Real.cos (Real.pi * k / pm)
        = -((cosScaled k pm : ℝ) / 2 ^ 128 - Real.cos (Real.pi * k / pm)) := by push_cast; ring
    rw [hneg, abs_neg]
    exact cosScaled_near k pm hpm hlt.le
  · have hang : Real.pi * (k : ℝ) / ((2 * k : Nat) : ℝ) = Real.pi / 2 := by
      have : (k : ℝ) ≠ 0 := by simpa using hpm'
      push_cast
      field_simp
    rw [hann_half, hang, Real.cos_pi_div_two]
    norm_num [abs_le]
  · rw [hann_of_half_lt hgt hk]
    refine hannRound_near _ _ ?_
    have hang : Real.pi * ((pm - k : Nat) : ℝ) / pm = Real.pi - Real.pi * k / pm := by
      push_cast [hk]
      field_simp
    rw [← Real.cos_pi_sub, ← hang]
    exact cosScaled_near (pm - k) pm hpm (by omega)

/-- R141: the window lies within a half and a millionth of its exact value at every index. -/
theorem hann_near (pm k : Nat) (hpm : 1 ≤ pm) (hk : k ≤ 2 * pm) : |(hann pm k : ℝ) - hannExact pm k| ≤ 1 / 2 + 1 / 10 ^ 6 := by
  rcases le_total k pm with hle | hge
  · exact hann_near_of_le hpm hle
  · have hsymm : hann pm k = hann pm (2 * pm - k) := by
      have := hann_symm (pm := pm) (j := k - pm) (by omega)
      rwa [show pm - (k - pm) = 2 * pm - k by omega, show pm + (k - pm) = k by omega, eq_comm] at this
    rw [hsymm, ← hannExact_symm hpm hk]
    exact hann_near_of_le hpm (by omega)

end Sys2Proof.Machine
end

section
/-! PROOFS. The level and the record of a hop (R9, R17 to R25): the sums over the newest samples, the normalized differences,
the chosen lag and the refined period. -/

namespace Sys2Proof.Machine

/-! ## Sums of squares -/

/-- A square as a count. -/
theorem toNat_mul_self (a : Int) : (a * a).toNat = a.natAbs ^ 2 := by
  rw [← Int.natAbs_mul_self (a := a), Int.toNat_natCast, sq]

/-- R9: the level of a hop comes from the sum of its 256 squares. -/
theorem HistoryMemory.hopLevel_eq (h : HistoryMemory) : h.hopLevel
    = levelOf (((List.range 256).map fun j => (h.read (h.newest - BitVec.ofNat 32 j)).toInt.natAbs ^ 2).sum) := by
  simp only [HistoryMemory.hopLevel, HistoryMemory.newestSamples, toNat_mul_self, List.foldl_map, List.sum_eq_foldl]

/-! ## Differences and normalized differences -/

/-- R19: the difference at a lag that 1200 samples reach, as a sum over 600 pairs of samples. -/
theorem difference_eq (x : Nat → Int) (lag : Nat) (hlag : lag ≤ 600) :
    difference ((List.range 1200).map x) lag = ((List.range 600).map fun j => (x j - x (j + lag)).natAbs ^ 2).sum := by
  have hpairs : List.zipWith (fun a b => ((a - b) * (a - b)).toNat) (((List.range 1200).map x).take 600)
      ((((List.range 1200).map x).drop lag).take 600) = (List.range 600).map fun j => (x j - x (j + lag)).natAbs ^ 2 := by
    refine List.ext_getElem (by simp; omega) fun j _ _ => ?_
    simp [toNat_mul_self, add_comm]
  rw [difference, hpairs, List.sum_eq_foldl]

/-- R20: the normalized difference at a place of the list, from the sum of the differences up to it. -/
theorem normalize_getD (ds : List Nat) (lag sum i : Nat) (hi : i < ds.length) :
    (normalize lag sum ds).getD i 0 = if sum + (ds.take (i + 1)).sum = 0 then 4096
      else 4096 * ds.getD i 0 * (lag + i) / (sum + (ds.take (i + 1)).sum) := by
  induction ds generalizing lag sum i with
  | nil => simp at hi
  | cons d ds ih =>
    rw [normalize]
    cases i with
    | zero => simp
    | succ i =>
      rw [List.getD_cons_succ, List.getD_cons_succ, List.take_succ_cons, List.sum_cons, ← add_assoc,
        ih _ _ _ (by simpa using hi), add_assoc lag, add_comm 1 i]

/-- R20: n(τ) of 1200 samples, from their differences. -/
theorem atLag_normalizedDifferences (x : Nat → Int) (d : Nat → Nat) (τ : Nat) (hlo : 1 ≤ τ) (hhi : τ ≤ 600)
    (hd : ∀ τ, d τ = ((List.range 600).map fun j => (x j - x (j + τ)).natAbs ^ 2).sum) :
    atLag (normalizedDifferences ((List.range 1200).map x)) τ
      = if ((List.range τ).map fun i => d (i + 1)).sum = 0 then 4096
        else 4096 * d τ * τ / ((List.range τ).map fun i => d (i + 1)).sum := by
  have hds : ((List.range 600).map fun i => difference ((List.range 1200).map x) (i + 1)) = (List.range 600).map fun i => d (i + 1) :=
    List.map_congr_left fun i hi => by rw [difference_eq x _ (by simpa using hi), hd]
  have hat : ((List.range 600).map fun i => d (i + 1)).getD (τ - 1) 0 = d τ := by
    rw [List.getD_eq_getElem _ _ (by simp; omega)]
    simp [Nat.sub_add_cancel hlo]
  rw [atLag, normalizedDifferences, hds, normalize_getD _ _ _ _ (by simp; omega), hat, Nat.sub_add_cancel hlo,
    Nat.add_sub_cancel' hlo, zero_add, ← List.map_take, List.take_range, min_eq_left hhi]

/-! ## The chosen lag -/

/-- A lag is a dip (R21): its normalized difference is below 614 and no more than that of the next lag. -/
def isDip (n : Nat → Nat) (τ : Nat) : Prop := n τ < 614 ∧ n τ ≤ n (τ + 1)

/-- What R21 asks of the chosen lag: the first dip of the lags 40 to 599, or with no dip the least value of the lags 40 to
600, the smallest lag on ties. -/
def LagChosen (n : Nat → Nat) (lag : Nat) : Prop :=
  (lag ≤ 599 ∧ n lag < 614 ∧ n lag ≤ n (lag + 1) ∧ ∀ τ, 40 ≤ τ → τ < lag → ¬ isDip n τ)
  ∨ ((∀ τ, 40 ≤ τ → τ ≤ 599 → ¬ isDip n τ) ∧ (∀ τ, 40 ≤ τ → τ ≤ 600 → n lag ≤ n τ)
    ∧ ∀ τ, 40 ≤ τ → τ < lag → n lag < n τ)

/-- The lag a scan of `k` lags from 40 on ends at: no value among them is smaller, and none before it is as small. -/
theorem scan_least (n : Nat → Nat) (k : Nat) {lag : Nat}
    (hlag : lag = (List.range k).foldl (fun best i => if n (i + 40) < n best then i + 40 else best) 40) :
    (40 ≤ lag ∧ lag ≤ 40 + (k - 1)) ∧ (∀ τ, 40 ≤ τ → τ < 40 + k → n lag ≤ n τ) ∧ ∀ τ, 40 ≤ τ → τ < lag → n lag < n τ := by
  induction k generalizing lag with
  | zero =>
    rw [List.range_zero, List.foldl_nil] at hlag
    exact ⟨by omega, fun τ h1 h2 => by omega, fun τ h1 h2 => by omega⟩
  | succ k ih =>
    obtain ⟨hrange, hleast, hfirst⟩ := ih rfl
    rw [List.range_succ, List.foldl_append] at hlag
    simp only [List.foldl_cons, List.foldl_nil] at hlag
    generalize (List.range k).foldl (fun best i => if n (i + 40) < n best then i + 40 else best) 40 = best at *
    split at hlag
    case isTrue hless =>
      subst hlag
      refine ⟨by omega, fun τ h1 h2 => ?_, fun τ h1 h2 => hless.trans_le (hleast τ h1 (by omega))⟩
      rcases Nat.lt_or_ge τ (40 + k) with h | h
      · exact hless.le.trans (hleast τ h1 h)
      · rw [show τ = k + 40 by omega]
    case isFalse hless =>
      subst hlag
      refine ⟨by omega, fun τ h1 h2 => ?_, hfirst⟩
      rcases Nat.lt_or_ge τ (40 + k) with h | h
      · exact hleast τ h1 h
      · rw [show τ = k + 40 by omega]
        exact not_lt.1 hless

/-- R21: the lag the tracker chooses is the one the rule asks for. -/
theorem chooseLag_spec (ns : List Nat) :
    (40 ≤ chooseLag ns ∧ chooseLag ns ≤ 600) ∧ LagChosen (atLag ns) (chooseLag ns) := by
  have hdip (i : Nat) : (atLag ns (i + 40) < 614 && atLag ns (i + 40) ≤ atLag ns (i + 41)) = true ↔ isDip (atLag ns) (i + 40) := by
    simp [isDip]
  unfold chooseLag
  cases hfind : (List.range 560).find? fun i => atLag ns (i + 40) < 614 && atLag ns (i + 40) ≤ atLag ns (i + 41) with
  | some i =>
    dsimp only
    obtain ⟨hat, hmem, hbefore⟩ := List.find?_range_eq_some.1 hfind
    have hlt := List.mem_range.1 hmem
    obtain ⟨hlow, hrise⟩ := (hdip i).1 hat
    refine ⟨by omega, .inl ⟨by omega, hlow, hrise, fun τ h1 h2 hτ => ?_⟩⟩
    obtain ⟨j, rfl⟩ := Nat.exists_eq_add_of_le' h1
    have := hbefore j (by omega)
    simp [(hdip j).2 hτ] at this
  | none =>
    dsimp only
    generalize hlag : (List.range 561).foldl _ 40 = lag
    obtain ⟨hrange, hleast, hfirst⟩ := scan_least (atLag ns) 561 hlag.symm
    refine ⟨by omega, .inr ⟨fun τ h1 h2 hτ => ?_, fun τ h1 h2 => hleast τ h1 (by omega), hfirst⟩⟩
    obtain ⟨j, rfl⟩ := Nat.exists_eq_add_of_le' h1
    have := List.find?_range_eq_none.1 hfind j (by omega)
    simp [(hdip j).2 hτ] at this

/-! ## The period -/

/-- R22: with no dip of positive curvature the refined period is that of the lag itself. -/
theorem refinePeriod_of_flat (lag : Nat) (a b c : Int) (hq : a - 2 * b + c ≤ 0) : refinePeriod lag a b c = 16 * lag := by
  simp only [refinePeriod, if_pos hq]

/-- R22: the refined period of a dip, δ held within a half either way by holding a − c within ±q. -/
theorem refinePeriod_of_dip (lag : Nat) (a b c q : Int) (hq : q = a - 2 * b + c) (hpos : 0 < q) :
    refinePeriod lag a b c = (32 * lag * q + 16 * max (-q) (min q (a - c)) + q) / (2 * q) := by
  have half (k r : Int) (h0 : 0 ≤ r) (hr : r < 2 * q) : (2 * q * k + r) / (2 * q) = k := by
    rw [Int.mul_add_ediv_left _ _ (by omega), Int.ediv_eq_zero_of_lt h0 hr, add_zero]
  simp only [refinePeriod, ← hq, if_neg (not_le.2 hpos)]
  split
  case isTrue hhi =>
    rw [min_eq_left hhi, max_eq_right (by omega), ← half (16 * lag + 8) q (by omega) (by omega)]
    ring_nf
  case isFalse hhi =>
    rw [min_eq_right (by omega)]
    split
    case isTrue hlo =>
      rw [max_eq_left hlo, ← half (16 * lag - 8) q (by omega) (by omega)]
      ring_nf
    case isFalse hlo =>
      rw [max_eq_right (by omega), roundHalfUp, Int.toNat_of_nonneg hpos.le]
      ring_nf

/-- R22: the refined period stays within a half lag of its lag. -/
theorem refinePeriod_near (lag : Nat) (a b c : Int) :
    16 * (lag : Int) - 8 ≤ refinePeriod lag a b c ∧ refinePeriod lag a b c ≤ 16 * lag + 8 := by
  rcases le_or_gt (a - 2 * b + c) 0 with hq | hq
  · rw [refinePeriod_of_flat _ _ _ _ hq]
    omega
  · rw [refinePeriod_of_dip lag a b c _ rfl hq]
    generalize a - 2 * b + c = q at *
    have hm1 : -q ≤ max (-q) (min q (a - c)) := le_max_left _ _
    have hm2 : max (-q) (min q (a - c)) ≤ q := max_le (by omega) (min_le_left _ _)
    constructor
    · rw [Int.le_ediv_iff_mul_le (by omega)]
      nlinarith
    · refine Int.lt_add_one_iff.1 ?_
      rw [Int.ediv_lt_iff_lt_mul (by omega)]
      nlinarith

/-- R22: at the ends of the range of lags nothing is refined. -/
theorem periodOf_end (ns : List Nat) (lag : Nat) (hend : lag = 40 ∨ lag = 600) : periodOf ns lag = 16 * lag := by
  rw [periodOf, if_neg (by omega)]
  simp only [clampInt]
  omega

/-- R22: within the range of lags the period is the refined one; the clamp to 640..9600 changes nothing. -/
theorem periodOf_inner (ns : List Nat) (lag : Nat) (hlo : 40 < lag) (hhi : lag < 600) :
    (periodOf ns lag : Int) = refinePeriod lag (atLag ns (lag - 1)) (atLag ns lag) (atLag ns (lag + 1)) := by
  have := refinePeriod_near lag (atLag ns (lag - 1)) (atLag ns lag) (atLag ns (lag + 1))
  rw [periodOf, if_pos (by omega)]
  simp only [clampInt]
  omega

/-! ## The record -/

/-- R18: below a fill count of 1200 the record is unvoiced and keeps its period and lead cents. -/
theorem State.hopRecord_of_fill_lt (s : State) (level : Int) (h : s.hm.fill < 1200) :
    s.hopRecord level = { s.pt.record with voiced := false, confidence := 0, level := level } := by
  rw [State.hopRecord, if_pos h, PitchRecord.unanalysed]

/-- R17: from a fill count of 1200 on the record is the analysis of the newest 1200 samples. -/
theorem State.hopRecord_of_le_fill (s : State) (level : Int) (x : Nat → Int) (h : 1200 ≤ s.hm.fill)
    (hx : ∀ j, x j = (s.hm.read (s.hm.newest - BitVec.ofNat 32 j)).toInt) :
    s.hopRecord level = analyse s.cfg ((List.range 1200).map x) level := by
  rw [State.hopRecord, if_neg (by omega), HistoryMemory.newestSamples, funext hx]

/-- R21: the chosen lag depends on the values of the lags 40 to 600 alone. -/
theorem LagChosen.congr {n m : Nat → Nat} {lag : Nat} (hlo : 40 ≤ lag) (hhi : lag ≤ 600)
    (h : ∀ τ, 40 ≤ τ → τ ≤ 600 → n τ = m τ) (hc : LagChosen n lag) : LagChosen m lag := by
  have dip (τ : Nat) (h1 : 40 ≤ τ) (h2 : τ ≤ 599) : isDip n τ ↔ isDip m τ := by
    rw [isDip, isDip, h τ h1 (by omega), h (τ + 1) (by omega) (by omega)]
  rcases hc with ⟨hle, hlow, hrise, hfirst⟩ | ⟨hnone, hleast, hfirst⟩
  · obtain ⟨hlow, hrise⟩ := (dip lag hlo hle).1 ⟨hlow, hrise⟩
    exact .inl ⟨hle, hlow, hrise, fun τ h1 h2 => (dip τ h1 (by omega)).not.1 (hfirst τ h1 h2)⟩
  · refine .inr ⟨fun τ h1 h2 => (dip τ h1 h2).not.1 (hnone τ h1 h2), fun τ h1 h2 => ?_, fun τ h1 h2 => ?_⟩
    · rw [← h lag hlo hhi, ← h τ h1 h2]
      exact hleast τ h1 h2
    · rw [← h lag hlo hhi, ← h τ h1 (by omega)]
      exact hfirst τ h1 h2

/-- R23 to R25: the record of an analysis, from the normalized difference and the period of the chosen lag. -/
theorem analyse_eq (cfg : Setup) (xs : List Int) (level : Int) {ns : List Nat} {lag period dip : Nat}
    (hns : normalizedDifferences xs = ns) (hlag : chooseLag ns = lag) (hperiod : periodOf ns lag = period)
    (hdip : atLag ns lag = dip) :
    analyse cfg xs level =
      { voiced := decide (cfg.voicedThreshold ≤ 255 - min 255 (255 * dip / 4096) ∧ cfg.gate ≤ level)
        period := period, confidence := 255 - min 255 (255 * dip / 4096), cents := leadCents period, level := level } := by
  simp only [analyse, hns, hlag, hperiod, hdip, confidenceOf, Bool.decide_and]

/-! ## The obligation -/

/-- Settles O27: each value from its own rule, and the record from the analysis of the newest samples. -/
theorem irrationalValuesRoundToNearest : Obligations.IrrationalValuesRoundToNearest := by
  refine ⟨fun x => ⟨(levelOf_range x).1, (levelOf_range x).2, neg_le_levelOf_iff x⟩, HistoryMemory.hopLevel_eq,
    fun level s => ⟨s.hopRecord_of_fill_lt level, fun x d n hfill hx hd hn => ?_⟩, fun p hlo hhi => ?_,
    fun p d _ hp hlo _ => synthesisPeriod_nearest p d hp hlo,
    fun pm j hpm hj => ⟨hann_start hpm, hann_mark hpm, hann_symm hj⟩, fun m _ => hann_half m, hann_near, gainFactor_zero,
    gainFactor_nearest⟩
  · have hat (τ : Nat) (h1 : 1 ≤ τ) (h2 : τ ≤ 600) : atLag (normalizedDifferences ((List.range 1200).map x)) τ = n τ := by
      rw [hn, atLag_normalizedDifferences x d τ h1 h2 hd]
    rw [s.hopRecord_of_le_fill level x hfill hx]
    generalize hns : normalizedDifferences ((List.range 1200).map x) = ns at hat
    obtain ⟨⟨hlo, hhi⟩, hchosen⟩ := chooseLag_spec ns
    generalize hlag : chooseLag ns = lag at *
    refine ⟨lag, _, analyse_eq s.cfg _ level hns hlag rfl (hat lag (by omega) hhi), hlo, hhi,
      hchosen.congr hlo hhi fun τ h1 => hat τ (by omega), periodOf_end ns lag, fun hlo hhi a b c q m ha hb hc hq => ?_⟩
    have hperiod := periodOf_inner ns lag hlo hhi
    rw [hat (lag - 1) (by omega) (by omega), hat lag (by omega) (by omega), hat (lag + 1) (by omega) (by omega), ← ha, ← hb,
      ← hc] at hperiod
    constructor
    · intro hflat
      rw [refinePeriod_of_flat _ _ _ _ (hq ▸ hflat)] at hperiod
      omega
    · rintro hpos rfl
      rw [hperiod, refinePeriod_of_dip _ _ _ _ q hq hpos]
  · obtain ⟨hrlo, hrhi⟩ := leadCents_range p hlo hhi
    obtain ⟨l, hl⟩ := Int.eq_ofNat_of_zero_le (show 0 ≤ leadCents p by omega)
    exact ⟨l, hl, by omega, by omega, leadCents_nearest p l hlo hhi hl⟩

end Sys2Proof.Machine
end

section
/-! PROOFS. The key decision (R42): the score as a sum, the best key as the lowest of the greatest scores, and the margin a
new key needs. -/

namespace Sys2Proof.Machine

/-! ## The score and the best key -/

theorem score_eq_sum (tally : Vector Nat 12) (k : Fin 12) :
    score tally k = ((List.finRange 7).map fun i => tally[pitchClass (k.val + ScaleKind.major.tones[i])]).sum := by
  rw [score, List.sum_eq_foldl, List.foldl_map]

/-- A scan of an ascending list that moves on only to a greater value ends at the lowest place of the greatest value. -/
theorem foldl_greater_eq_of_lowest_greatest {n : Nat} (f : Fin n → Nat) {b : Fin n}
    (hmax : ∀ k, f k ≤ f b) (hlow : ∀ k, k < b → f k < f b) (xs : List (Fin n)) :
    ∀ a, (a :: xs).Pairwise (· ≤ ·) → b ∈ a :: xs → xs.foldl (fun m k => if f m < f k then k else m) a = b := by
  induction xs with
  | nil => exact fun a _ hb => (List.mem_singleton.1 hb).symm
  | cons x xs ih =>
    intro a hasc hb
    obtain ⟨ha, hx⟩ := List.pairwise_cons.1 hasc
    have hax : a ≤ x := ha x List.mem_cons_self
    rw [List.foldl_cons]
    split
    case isTrue hgt =>
      have hne : b ≠ a := fun h => absurd (hmax x) (h ▸ hgt.not_ge)
      exact ih x hx (List.mem_of_ne_of_mem hne hb)
    case isFalse hle =>
      have hmem : b ∈ a :: xs := by
        obtain rfl | rfl | hb : b = a ∨ b = x ∨ b ∈ xs := by simpa only [List.mem_cons] using hb
        · exact List.mem_cons_self
        · have heq : a = b := hax.eq_of_not_lt fun hlt => hle (hlow a hlt)
          exact heq ▸ List.mem_cons_self
        · exact List.mem_cons_of_mem a hb
      exact ih a (hasc.sublist (by simp)) hmem

/-- R42: the scan over the twelve keys ends at the lowest of the greatest scores. -/
theorem bestLowest_eq {tally : Vector Nat 12} {b : Fin 12} (hmax : ∀ k, score tally k ≤ score tally b)
    (hlow : ∀ k, k < b → score tally k < score tally b) : bestLowest tally = b :=
  foldl_greater_eq_of_lowest_greatest (score tally) hmax hlow (List.finRange 12) 0 (by decide)
    (List.mem_cons_of_mem 0 (List.mem_finRange b))

/-- A favoured key that scores less than the greatest has no say. -/
theorem bestKey_some_of_lt {tally : Vector Nat 12} {b c : Fin 12} (hc : score tally c < score tally b)
    (hmax : ∀ k, score tally k ≤ score tally b) (hlow : ∀ k, k < b → score tally k < score tally b) :
    bestKey tally (some c) = b := by
  simp only [bestKey, bestLowest_eq hmax hlow, if_neg hc.ne]

/-! ## The margin -/

theorem marginDecision_of_le {tally : Vector Nat 12} {key : Key}
    (h : ∀ k, score tally k ≤ score tally key.pc + score tally key.pc / 8) : marginDecision tally key = key :=
  if_neg fun hmoves => (h _).not_gt hmoves.2

theorem marginDecision_of_lt {tally : Vector Nat 12} {key : Key} {b : Fin 12}
    (hmargin : score tally key.pc + score tally key.pc / 8 < score tally b)
    (hbest : bestKey tally (some key.pc) = b) : marginDecision tally key = { pc := b, kind := .major } := by
  have hne : b ≠ key.pc := by
    rintro rfl
    omega
  rw [marginDecision, hbest]
  exact if_pos ⟨hne, hmargin⟩

/-! ## The obligation -/

/-- Settles O20: with no score past the margin the decision keeps the key, and a best key past it scores more than the
current one, which then cannot win as a tie. -/
theorem keyDecisionNeedsMargin : Obligations.KeyDecisionNeedsMargin := by
  intro tally key
  refine ⟨score_eq_sum tally, marginDecision_of_le, fun b hmargin hmax hlow => ?_⟩
  have hgreater : score tally key.pc < score tally b := by omega
  exact marginDecision_of_lt hmargin (bestKey_some_of_lt hgreater hmax hlow)

end Sys2Proof.Machine
end

section
/-! PROOFS. Folding into a lane (R60): the value on each side of the lane, where it ends, and the pitch class it keeps. -/

namespace Sys2Proof.Machine

/-! ## The folded note by the side it comes from -/

theorem foldIntoLane_of_below {low : Nat} {t : Int} (span : Nat) (h : t < low) :
    foldIntoLane low span t = low + (t - low) % 12 := if_pos h

theorem foldIntoLane_of_above {low span : Nat} {t : Int} (h : low + span < t) :
    foldIntoLane low span t = low + span - (low + span - t) % 12 :=
  (if_neg (by omega)).trans (if_pos h)

theorem foldIntoLane_of_inside {low span : Nat} {t : Int} (hlow : low ≤ t) (hhigh : t ≤ low + span) :
    foldIntoLane low span t = t :=
  (if_neg hlow.not_gt).trans (if_neg hhigh.not_gt)

/-- R60: a note from below ends within the lowest octave of the lane. -/
theorem foldIntoLane_bounds_of_below {low : Nat} {t : Int} (span : Nat) (h : t < low) :
    (low : Int) ≤ foldIntoLane low span t ∧ foldIntoLane low span t ≤ low + 11 := by
  rw [foldIntoLane_of_below span h]
  omega

/-- R60: a note from above ends within the highest octave of the lane. -/
theorem foldIntoLane_bounds_of_above {low span : Nat} {t : Int} (h : low + span < t) :
    (low : Int) + span - 11 ≤ foldIntoLane low span t ∧ foldIntoLane low span t ≤ low + span := by
  rw [foldIntoLane_of_above h]
  omega

/-! ## Every lane -/

/-- R60: folding moves by whole octaves only, in a lane of any span. -/
theorem foldIntoLane_emod_twelve (low span : Nat) (t : Int) : foldIntoLane low span t % 12 = t % 12 := by
  rcases lt_or_ge t low with hbelow | hlow
  · rw [foldIntoLane_of_below span hbelow, Int.add_emod_emod, add_sub_cancel]
  rcases lt_or_ge (low + span : Int) t with habove | hhigh
  · rw [foldIntoLane_of_above habove, Int.sub_emod_emod, sub_sub_cancel]
  · rw [foldIntoLane_of_inside hlow hhigh]

/-- R60: a lane that spans an octave (R54) holds every folded note: an end octave of such a lane lies inside it. -/
theorem foldIntoLane_mem_Icc {span : Nat} (hspan : 12 ≤ span) (low : Nat) (t : Int) :
    foldIntoLane low span t ∈ Set.Icc (low : Int) (low + span) := by
  rcases lt_or_ge t low with hbelow | hlow
  · obtain ⟨hge, hle⟩ := foldIntoLane_bounds_of_below span hbelow
    exact ⟨hge, by omega⟩
  rcases lt_or_ge (low + span : Int) t with habove | hhigh
  · obtain ⟨hge, hle⟩ := foldIntoLane_bounds_of_above habove
    exact ⟨by omega, hle⟩
  · rw [foldIntoLane_of_inside hlow hhigh]
    exact ⟨hlow, hhigh⟩

/-! ## The obligation -/

/-- Settles O23, from the folded note's place on each side of the lane. -/
theorem foldingEndsInsideLane : Obligations.FoldingEndsInsideLane := by
  intro low span t hspan
  obtain ⟨hlow, hhigh⟩ := foldIntoLane_mem_Icc hspan low t
  exact ⟨hlow, hhigh, foldIntoLane_emod_twelve low span t, foldIntoLane_of_inside,
    fun hbelow => (foldIntoLane_bounds_of_below span hbelow).2,
    fun habove => (foldIntoLane_bounds_of_above habove).1⟩

end Sys2Proof.Machine
end

section
/-! PROOFS. The collision and the precedence test of the note contest (R83 to R85): when two notes collide, what a candidate
loses to, and when it passes. -/

namespace Sys2Proof.Machine

/-! ## Collision -/

theorem collides_false_iff (n m : Nat) : collides false n m = true ↔ n = m := beq_iff_eq

theorem collides_true_iff (n m : Nat) : collides true n m = true ↔ n % 12 = m % 12 := beq_iff_eq

theorem collides_comm (byClass : Bool) (n m : Nat) : collides byClass n m = collides byClass m n := by
  cases byClass with
  | false => exact Bool.beq_comm
  | true => exact Bool.beq_comm

/-! ## Precedence -/

/-- R85: between claims of different firmness the firm one wins, whichever station holds it. -/
theorem winsPrecedence_of_ne {ownFirm firm : Bool} (h : ownFirm ≠ firm) (own peer : Station) :
    winsPrecedence ownFirm own firm peer = ownFirm := if_neg h

/-- R85: between claims of one firmness the lower station number wins. -/
theorem winsPrecedence_same_iff (firm : Bool) (own peer : Station) :
    winsPrecedence firm own firm peer = true ↔ own < peer := by
  rw [winsPrecedence, if_pos rfl, decide_eq_true_iff, Fin.lt_def]

theorem Voice.firmOn_iff (vo : Voice) (n : Nat) :
    vo.firmOn n = true ↔ ∃ c, vo.plan.claim = some c ∧ c.firm = true ∧ c.note = n := by
  rw [Voice.firmOn]
  cases vo.plan.claim with
  | none => simp
  | some c => simp

/-! ## Losing and passing -/

theorem losesTo_peerLead (byClass : Bool) (own : Station) (vo : Voice) (n : Nat) (p : Station) (m : Nat) :
    losesTo byClass own vo n (.peerLead p m) = collides byClass n m := Bool.and_true _

theorem losesTo_ownLead (byClass : Bool) (own : Station) (vo : Voice) (n m : Nat) :
    losesTo byClass own vo n (.ownLead m) = collides byClass n m := Bool.and_true _

theorem losesTo_ownVoice (byClass : Bool) (own : Station) (vo : Voice) (n : Nat) (v : VoiceIx) (m : Nat) :
    losesTo byClass own vo n (.ownVoice v m) = collides byClass n m := Bool.and_true _

theorem losesTo_peerClaim (byClass : Bool) (own : Station) (vo : Voice) (n : Nat) (p : Station) (v : VoiceIx) (m : Nat)
    (firm : Bool) : losesTo byClass own vo n (.peerClaim p v m firm)
      = (collides byClass n m && !winsPrecedence (vo.firmOn n) own firm p) := rfl

/-- R84: a loss against any one entry is a loss. -/
theorem passes_iff (byClass : Bool) (own : Station) (set : List Sounding) (vo : Voice) (n : Nat) :
    passes byClass own set vo n = true ↔ ∀ e ∈ set, losesTo byClass own vo n e = false := by
  rw [passes, Bool.not_eq_true', List.any_eq_false]
  simp only [Bool.not_eq_true]

/-! ## The obligation -/

/-- Settles O25, from the tests above. -/
theorem candidateLosesByCollision : Obligations.CandidateLosesByCollision := by
  refine ⟨fun byClass own p v vo n m firm set => ?_, fun own peer vo n => ?_⟩
  · exact ⟨collides_false_iff n m, collides_true_iff n m, losesTo_peerLead byClass own vo n p m,
      losesTo_ownLead byClass own vo n m, losesTo_ownVoice byClass own vo n v m, losesTo_peerClaim byClass own vo n p v m firm,
      passes_iff byClass own set vo n⟩
  · exact ⟨winsPrecedence_of_ne Bool.false_ne_true own peer, winsPrecedence_of_ne Bool.false_ne_true.symm own peer,
      fun firm _ => winsPrecedence_same_iff firm own peer, vo.firmOn_iff n⟩

end Sys2Proof.Machine
end

section
/-! PROOFS. The invariant behind R90, what a change of single voices leaves of it, and the operations that do nothing more
than that. -/

namespace Sys2Proof.Machine

/-! ## One voice's claim -/

/-- The voice holds no claim, has no decided note, and is in none of ONSET, SOUND and HOLD. -/
def Voice.silent (vo : Voice) : Prop :=
  vo.plan.claim = none ∧ vo.plan.decided = none ∧ vo.eng.state.sounding = false

/-- Voice `b` claims, plays and has decided what voice `a` does, and is as doubled as `a`. -/
def Voice.sameClaim (a b : Voice) : Prop :=
  b.plan.claim.map (·.note) = a.plan.claim.map (·.note) ∧ b.plan.decided = a.plan.decided
    ∧ b.plan.doubled = a.plan.doubled ∧ b.eng.state.sounding = a.eng.state.sounding

/-- Voice `a` becomes voice `b` by at most giving up its claim. -/
def Voice.keepsOrDrops (a b : Voice) : Prop := b.silent ∨ a.sameClaim b

theorem Voice.sameClaim.rfl {a : Voice} : a.sameClaim a := ⟨Eq.refl _, Eq.refl _, Eq.refl _, Eq.refl _⟩

theorem Voice.sameClaim.trans {a b c : Voice} (hab : a.sameClaim b) (hbc : b.sameClaim c) : a.sameClaim c := by
  obtain ⟨hclaim, hdecided, hdoubled, hstate⟩ := hab
  obtain ⟨hclaim', hdecided', hdoubled', hstate'⟩ := hbc
  exact ⟨hclaim'.trans hclaim, hdecided'.trans hdecided, hdoubled'.trans hdoubled, hstate'.trans hstate⟩

theorem Voice.silent.of_sameClaim {a b : Voice} (ha : a.silent) (hab : a.sameClaim b) : b.silent := by
  obtain ⟨hclaim, hdecided, hstate⟩ := ha
  obtain ⟨hclaim', hdecided', -, hstate'⟩ := hab
  exact ⟨by simpa [hclaim] using hclaim', hdecided'.trans hdecided, hstate'.trans hstate⟩

theorem Voice.keepsOrDrops.rfl {a : Voice} : a.keepsOrDrops a := .inr .rfl

theorem Voice.keepsOrDrops.trans {a b c : Voice} (hab : a.keepsOrDrops b) (hbc : b.keepsOrDrops c) : a.keepsOrDrops c := by
  rcases hbc with hc | hbc
  · exact .inl hc
  rcases hab with hb | hab
  · exact .inl (hb.of_sameClaim hbc)
  · exact .inr (hab.trans hbc)

/-- A change that leaves the planning part alone keeps the claim when it keeps the voice sounding, or not sounding. -/
theorem Voice.keepsOrDrops.of_plan {a b : Voice} (hplan : b.plan = a.plan)
    (hstate : b.eng.state.sounding = a.eng.state.sounding) : a.keepsOrDrops b :=
  .inr ⟨by rw [hplan], by rw [hplan], by rw [hplan], hstate⟩

/-- R72: a voice holds a claim exactly in ONSET, SOUND and HOLD, and its decided note is the claim's, or none. -/
structure Voice.InStep (vo : Voice) : Prop where
  sounds : vo.plan.claim.isSome = vo.eng.state.sounding
  note : vo.plan.claim.map (·.note) = vo.plan.decided

theorem Voice.silent.inStep {vo : Voice} (h : vo.silent) : vo.InStep := by
  obtain ⟨hclaim, hdecided, hstate⟩ := h
  exact ⟨by rw [hclaim, hstate]; rfl, by rw [hclaim, hdecided]; rfl⟩

theorem Voice.InStep.of_sameClaim {a b : Voice} (ha : a.InStep) (hab : a.sameClaim b) : b.InStep := by
  obtain ⟨hsounds, hnote⟩ := ha
  obtain ⟨hclaim, hdecided, -, hstate⟩ := hab
  refine ⟨?_, by rw [hclaim, hnote, hdecided]⟩
  rw [hstate, ← hsounds, ← Option.isSome_map, hclaim, Option.isSome_map]

theorem Voice.InStep.of_keepsOrDrops {a b : Voice} (ha : a.InStep) (hab : a.keepsOrDrops b) : b.InStep :=
  hab.elim (·.inStep) ha.of_sameClaim

theorem Voice.clashes_iff (byClass : Bool) (a b : Voice) : a.clashes byClass b = true ↔
    ∃ m n, a.plan.claim.map (·.note) = some m ∧ b.plan.claim.map (·.note) = some n ∧ collides byClass m n = true := by
  rw [Voice.clashes]
  cases a.plan.claim <;> cases b.plan.claim <;> simp

/-- A voice that keeps or drops its claim holds no note that it did not hold before, and is as doubled as before while it
holds one. -/
theorem Voice.keepsOrDrops.of_note {a b : Voice} (h : a.keepsOrDrops b) {n : Nat}
    (hn : b.plan.claim.map (·.note) = some n) :
    a.plan.claim.map (·.note) = some n ∧ b.plan.doubled = a.plan.doubled := by
  rcases h with ⟨hclaim, -, -⟩ | ⟨hclaim, -, hdoubled, -⟩
  · rw [hclaim] at hn
    cases hn
  · exact ⟨hclaim.symm.trans hn, hdoubled⟩

/-! ## The invariant -/

/-- What keeps own claims apart from step to step, on the parts of the state it speaks of: the voices, COLLIDE, the part state
and whether a measurement is in progress. R72: claim, engine and decided note of a voice are in step; R79, R135: outside LIVE no
voice holds a claim; R163: a measurement is in progress in CALIBRATE alone; and R90 itself. -/
structure ClaimsKept (voices : Vector Voice 8) (byClass : Bool) (part : PartState) (measuring : Bool) : Prop where
  inStep : ∀ v : VoiceIx, voices[v].InStep
  outsideLive : part ≠ .live → ∀ v : VoiceIx, voices[v].plan.claim = none
  measures : measuring = true → part = .calibrate
  apart : ∀ v w : VoiceIx, v < w → voices[v].clashes byClass voices[w] = true → voices[w].plan.doubled = true

/-- The invariant `ClaimsKept` of a state. -/
def State.claimsKept (s : State) : Prop := ClaimsKept s.voices s.cfg.collideClass s.sc.part s.inp.measurement.isSome

/-- The invariant follows from the soundness of the claims and R90. -/
theorem State.claimsKept_of_claimsOk {s : State} (hok : s.claimsOk) (hapart : s.claimsApart) : s.claimsKept := by
  obtain ⟨hvoice, hlive, -, hmeasure⟩ := hok
  have hinStep (v : VoiceIx) : s.voices[v].InStep := by
    obtain ⟨hsounds, hnote, -, -⟩ := hvoice v
    exact ⟨hsounds, hnote⟩
  refine ⟨hinStep, fun hpart v => ?_, fun hm => by simpa [hmeasure] using hm, hapart⟩
  rw [← Option.not_isSome_iff_eq_none, (hinStep v).sounds, hlive hpart v]
  exact Bool.false_ne_true

/-- Voices that keep or drop their claims keep the invariant. -/
theorem ClaimsKept.voicewise {voices voices' : Vector Voice 8} {byClass measuring : Bool} {part : PartState}
    (h : ClaimsKept voices byClass part measuring) (hv : ∀ v : VoiceIx, voices[v].keepsOrDrops voices'[v]) :
    ClaimsKept voices' byClass part measuring where
  inStep v := (h.inStep v).of_keepsOrDrops (hv v)
  outsideLive hpart v := by
    rcases hv v with ⟨hclaim, -, -⟩ | ⟨hclaim, -, -, -⟩
    · exact hclaim
    · rw [h.outsideLive hpart v] at hclaim
      exact Option.map_eq_none_iff.1 hclaim
  measures := h.measures
  apart v w hvw hclash := by
    obtain ⟨m, n, hm, hn, hcollides⟩ := (Voice.clashes_iff ..).1 hclash
    obtain ⟨hw, hdoubled⟩ := (hv w).of_note hn
    rw [hdoubled]
    exact h.apart v w hvw ((Voice.clashes_iff ..).2 ⟨m, n, ((hv v).of_note hm).1, hw, hcollides⟩)

/-- With no voice in possession of a claim the invariant asks of the part state only that it fits the measurement. -/
theorem ClaimsKept.of_silent {voices : Vector Voice 8} (hv : ∀ v : VoiceIx, voices[v].silent) (byClass : Bool)
    {part : PartState} {measuring : Bool} (hm : measuring = true → part = .calibrate) :
    ClaimsKept voices byClass part measuring where
  inStep v := (hv v).inStep
  outsideLive _ v := (hv v).1
  measures := hm
  apart v w _ hclash := by
    obtain ⟨m, n, hm, -, -⟩ := (Voice.clashes_iff ..).1 hclash
    rw [(hv v).1] at hm
    cases hm

/-- Outside LIVE every voice is silent. -/
theorem ClaimsKept.silent_of_ne_live {voices : Vector Voice 8} {byClass measuring : Bool} {part : PartState}
    (h : ClaimsKept voices byClass part measuring) (hpart : part ≠ .live) (v : VoiceIx) : voices[v].silent := by
  have hclaim := h.outsideLive hpart v
  obtain ⟨hsounds, hnote⟩ := h.inStep v
  rw [hclaim] at hsounds hnote
  exact ⟨hclaim, hnote.symm, hsounds.symm⟩

/-! ## Changes of single voices -/

namespace State.claimsKept

variable {s : State}

theorem setVoice (h : s.claimsKept) {v : VoiceIx} {vo : Voice} (hv : s.voices[v].keepsOrDrops vo) :
    (s.setVoice v vo).claimsKept := by
  refine h.voicewise fun w => ?_
  rw [State.setVoice_get]
  split
  case isTrue hw => exact hw ▸ hv
  case isFalse => exact .rfl

theorem mapVoices (h : s.claimsKept) {f : VoiceIx → Voice → Voice}
    (hf : ∀ (v : VoiceIx) (vo : Voice), vo.keepsOrDrops (f v vo)) : (s.mapVoices f).claimsKept :=
  h.voicewise fun v => by simpa only [State.mapVoices_get] using hf v s.voices[v]

theorem offerSome (h : s.claimsKept) (e : Option Entry) : (s.offerSome e).claimsKept := by
  rw [State.offerSome_eq]
  exact h

theorem putVoice (h : s.claimsKept) {v : VoiceIx} {r : Voice × Bool} (hv : s.voices[v].keepsOrDrops r.1) :
    (s.putVoice v r).claimsKept := (h.setVoice hv).offerSome _

/-- All eight voices put back in index order, each with the DROP it offers, if any. -/
theorem foldPutVoice (h : s.claimsKept) {f : VoiceIx → Voice × Bool} (hf : ∀ v : VoiceIx, s.voices[v].keepsOrDrops (f v).1) :
    ((List.finRange 8).foldl (fun t v => t.putVoice v (f v)) s).claimsKept := by
  rw [State.foldPutVoice_spec]
  exact h.voicewise fun v => by simpa using hf v

end State.claimsKept

end Sys2Proof.Machine
end

section
/-! PROOFS. The operations on one voice that keep or drop its claim: the engine's per-sample work, firming and refresh, a
stop and a written enable bit (R72 to R77, R129 to R147). -/

namespace Sys2Proof.Machine.Voice

/-! ## Giving the claim up -/

/-- R134, R76: a voice entering FADE holds nothing. -/
theorem silent_toFade (vo : Voice) : vo.toFade.silent := ⟨rfl, rfl, rfl⟩

theorem keepsOrDrops_toFade (vo : Voice) : vo.keepsOrDrops vo.toFade := .inl vo.silent_toFade

/-! ## Grains and epochs -/

theorem keepsOrDrops_starved (vo : Voice) : vo.keepsOrDrops vo.starved.1 := by
  rw [starved]
  split
  · exact .of_plan rfl rfl
  · exact .of_plan rfl rfl
  · exact .inl (silent_toFade _)
  · exact .rfl

theorem keepsOrDrops_startGrain (env : RenderEnv) (vo : Voice) : vo.keepsOrDrops (vo.startGrain env).1 := by
  rw [startGrain]
  split
  · refine .of_plan rfl ?_
    rw [Engine.addGrain]
    split <;> rfl
  · exact vo.keepsOrDrops_starved

theorem keepsOrDrops_epochDue (env : RenderEnv) (vo : Voice) : vo.keepsOrDrops (vo.epochDue env).1 := by
  rw [epochDue]
  split
  · exact (keepsOrDrops.of_plan rfl rfl).trans (keepsOrDrops_startGrain env _)
  · exact .rfl

theorem keepsOrDrops_epochStep (env : RenderEnv) (vo : Voice) : vo.keepsOrDrops (vo.epochStep env).1 := by
  rw [epochStep]
  split
  · exact (keepsOrDrops.of_plan rfl rfl).trans (keepsOrDrops_epochDue env _)
  · exact .rfl

/-! ## Envelope and end tests -/

theorem keepsOrDrops_envelopeStep (vo : Voice) : vo.keepsOrDrops vo.envelopeStep := by
  rw [envelopeStep]
  split
  · exact .of_plan rfl rfl
  · exact .rfl
  · exact .rfl
  · exact .of_plan rfl rfl

theorem keepsOrDrops_attackComplete (vo : Voice) : vo.keepsOrDrops vo.attackComplete := by
  rw [attackComplete]
  split
  case isTrue h => exact .of_plan rfl (by rw [h.1]; rfl)
  case isFalse => exact .rfl

theorem keepsOrDrops_fadeEnd (vo : Voice) : vo.keepsOrDrops vo.fadeEnd := by
  rw [fadeEnd]
  split
  case isTrue h =>
    refine .of_plan rfl ?_
    rw [h.1]
    cases vo.eng.disablePending <;> rfl
  case isFalse => exact .rfl

theorem keepsOrDrops_holdLimitDue (limit : Nat) (vo : Voice) : vo.keepsOrDrops (vo.holdLimitDue limit).1 := by
  rw [holdLimitDue]
  split
  · exact vo.keepsOrDrops_toFade
  · exact .rfl

theorem keepsOrDrops_holdStep (limit : Nat) (counts : Bool) (vo : Voice) :
    vo.keepsOrDrops (vo.holdStep limit counts).1 := by
  rw [holdStep]
  split
  · exact (keepsOrDrops.of_plan rfl rfl).trans (keepsOrDrops_holdLimitDue limit _)
  · exact .rfl

/-- R137: the six steps one after another. -/
theorem keepsOrDrops_runSample (env : RenderEnv) (counts : Bool) (vo : Voice) :
    vo.keepsOrDrops (vo.runSample env counts).voice := by
  have advance (b : Voice) : b.keepsOrDrops b.advanceGrains.endGrains := .of_plan rfl rfl
  exact (vo.keepsOrDrops_epochStep env).trans <| (keepsOrDrops_envelopeStep _).trans <| (advance _).trans <|
    (keepsOrDrops_attackComplete _).trans <| (keepsOrDrops_fadeEnd _).trans <| keepsOrDrops_holdStep _ counts _

theorem keepsOrDrops_sampleWork (env : RenderEnv) (counts : Bool) (vo : Voice) :
    vo.keepsOrDrops (vo.sampleWork env counts).voice := by
  rw [sampleWork]
  split
  · exact .rfl
  · exact .rfl
  · exact vo.keepsOrDrops_runSample env counts

/-! ## Firming and refresh -/

/-- A claim in place of another on the same note is the same claim, for what R90 says. -/
theorem sameClaim_withClaim {vo : Voice} {c c' : LocalClaim} (hc : vo.plan.claim = some c) (hnote : c'.note = c.note) :
    vo.sameClaim (vo.withClaim c') :=
  ⟨by rw [hc]; exact congrArg some hnote, rfl, rfl, rfl⟩

theorem sameClaim_firmDue (settle : Nat) (v : VoiceIx) (vo : Voice) : vo.sameClaim (vo.firmDue settle v).1 := by
  rw [firmDue]
  split
  case h_1 c hc =>
    split
    · exact sameClaim_withClaim hc rfl
    · exact .rfl
  case h_2 => exact .rfl

theorem sameClaim_settleStep (vo : Voice) : vo.sameClaim vo.settleStep := by
  rw [settleStep]
  split
  case h_1 c hc =>
    split
    · exact ⟨by rw [hc]; rfl, rfl, rfl, rfl⟩
    · exact .rfl
  case h_2 => exact .rfl

theorem sameClaim_refreshDue (refresh : Nat) (v : VoiceIx) (vo : Voice) : vo.sameClaim (vo.refreshDue refresh v).1 := by
  rw [refreshDue]
  split
  case h_1 c hc =>
    split
    · exact sameClaim_withClaim hc rfl
    · exact .rfl
  case h_2 => exact .rfl

theorem sameClaim_claimStands (cfg : Setup) (v : VoiceIx) (vo : Voice) : vo.sameClaim (vo.claimStands cfg v).1 := by
  have hfirm := vo.sameClaim_settleStep.trans (sameClaim_firmDue cfg.settle v vo.settleStep)
  rw [claimStands]
  split
  · exact hfirm
  · exact hfirm.trans (sameClaim.trans ⟨rfl, rfl, rfl, rfl⟩ (sameClaim_refreshDue cfg.refresh v _))

/-! ## Stops and enables -/

/-- R136: a voice stopped at a sync loss. -/
theorem keepsOrDrops_stop (vo : Voice) : vo.keepsOrDrops vo.stop.1 := by
  have hstate : vo.stop.1.eng.state.sounding = false := by
    simp only [stop]
    split
    · rfl
    · rfl
    · cases vo.cfg.enabled <;> rfl
  by_cases hs : vo.eng.state.sounding = true
  · have hplan : vo.stop.1.plan = vo.withoutClaim.plan := by simp only [stop, if_pos hs]
    exact .inl ⟨by rw [hplan]; rfl, by rw [hplan]; rfl, hstate⟩
  · exact .of_plan (by simp only [stop, if_neg hs]) (by rw [hstate, Bool.eq_false_of_not_eq_true hs])

/-- R129: a voice whose enable bit is written. -/
theorem keepsOrDrops_setEnable (bit : Bool) (vo : Voice) : vo.keepsOrDrops (vo.setEnable bit).1 := by
  rw [setEnable]
  split
  · exact .rfl
  · split
    case h_1 hs _ => exact .of_plan rfl (by rw [hs]; rfl)
    case h_4 hs _ => exact .of_plan rfl (by rw [hs]; rfl)
    case h_7 => exact .inl ⟨rfl, rfl, rfl⟩
    all_goals exact .of_plan rfl rfl

end Sys2Proof.Machine.Voice
end

section
/-! PROOFS. The operations on the state that keep the invariant of `ClaimsKept` because they leave claims alone, or keep or drop
them voice by voice. Where an operation only sets other fields its lemma is the invariant itself. -/

namespace Sys2Proof.Machine.State.claimsKept

variable {s : State}

/-! ## Other fields, attention and offers -/

theorem withLink (h : s.claimsKept) (l : LinkController) : State.claimsKept { s with link := l } := h

theorem withContext (h : s.claimsKept) (c : ContextUnit) : State.claimsKept { s with cu := c } := h

theorem raise (h : s.claimsKept) (c : Cause) : (s.raise c).claimsKept := h

theorem offer (h : s.claimsKept) (e : Entry) : (s.offer e).claimsKept := h

theorem offerLead (h : s.claimsKept) : s.offerLead.claimsKept := h

theorem offerKey (h : s.claimsKept) : s.offerKey.claimsKept := h

/-- A step that either does something or nothing. -/
theorem ite {p : Prop} [Decidable p] {t u : State} (ht : p → t.claimsKept) (hu : ¬p → u.claimsKept) :
    (if p then t else u).claimsKept := by
  split
  case isTrue hp => exact ht hp
  case isFalse hp => exact hu hp

/-! ## Context -/

theorem clearFreeCounts (h : s.claimsKept) : s.clearFreeCounts.claimsKept :=
  h.mapVoices fun _ _ => .inr ⟨rfl, rfl, rfl, rfl⟩

theorem noteContextChange (h : s.claimsKept) : s.noteContextChange.claimsKept :=
  clearFreeCounts (s := State.raise .context _) h

theorem setContext (h : s.claimsKept) (key : Key) (mode : KeyMode) (openDecision : Bool) :
    (s.setContext key mode openDecision).claimsKept := by
  rcases s.setContext_cases key mode openDecision with ⟨-, -, hset⟩ | ⟨-, hset⟩
  · rw [hset]
    exact h
  · rw [hset]
    exact (h.withContext _).noteContextChange.offerKey

theorem releasePin (h : s.claimsKept) : s.releasePin.claimsKept := h.setContext _ _ _

theorem setHeld (h : s.claimsKept) (held : Option Nat) (count : Nat) : (s.setHeld held count).claimsKept :=
  ite (fun _ => h) fun _ => (h.withContext _).clearFreeCounts

theorem holdLengthEnd (h : s.claimsKept) : s.holdLengthEnd.claimsKept := ite (fun _ => h.setHeld _ _) fun _ => h

theorem heldNoteWork (h : s.claimsKept) : s.heldNoteWork.claimsKept :=
  ite (fun _ => h.setHeld _ _) fun _ => ite (fun _ => (h.withContext _).holdLengthEnd) fun _ => h

theorem decisionDue (h : s.claimsKept) : s.decisionDue.claimsKept :=
  ite (fun _ => ite (fun _ => h) fun _ => (h.withContext _).noteContextChange) fun _ => h

/-- R35: the Context Unit's work at a hop clears free counts and touches no claim. -/
theorem contextWork (h : s.claimsKept) : s.contextWork.1.claimsKept :=
  ((h.heldNoteWork.withContext _).withContext _).decisionDue

theorem keyReceived (h : s.claimsKept) (p : Station) (k : KeyReport) : (s.keyReceived p k).claimsKept := by
  rw [State.keyReceived]
  split
  · refine ite (fun _ => ?_) fun _ => ite (fun _ => h.releasePin) fun _ => h
    split
    · exact h
    · exact h.setContext _ _ _
  · exact h

theorem holdLengthEvent (h : s.claimsKept) : s.holdLengthEvent.claimsKept :=
  ite (fun _ => h.holdLengthEnd) fun _ => h.holdLengthEnd.offerLead

theorem decisionEvent (h : s.claimsKept) : s.decisionEvent.claimsKept :=
  ite (fun _ => h.decisionDue) fun _ => h.decisionDue.offerKey

/-! ## Peer Table -/

theorem setPeer (h : s.claimsKept) (p : Station) (r : Option PeerRecord) : (s.setPeer p r).claimsKept := h

theorem findOrCreate (h : s.claimsKept) (p : Station) : (s.findOrCreate p).claimsKept := by
  rw [State.findOrCreate]
  split <;> exact h

theorem applyFrame (h : s.claimsKept) (p : Station) (f : LinkFrame) : (s.applyFrame p f).claimsKept := by
  rw [State.applyFrame]
  split <;> exact h

theorem goodFrame (h : s.claimsKept) (f : LinkFrame) : (s.goodFrame f).claimsKept :=
  have hframe := (h.findOrCreate f.station).applyFrame f.station f
  ite (fun _ => hframe.keyReceived _ _) fun _ => hframe

theorem recordLimitDue (h : s.claimsKept) (p : Station) : (s.recordLimitDue p).claimsKept := by
  rw [State.recordLimitDue]
  split
  · exact ite (fun _ => ite (fun _ => ((h.setPeer p none).raise .peer).releasePin) fun _ => h) fun _ => h
  · exact h

theorem ageing (h : s.claimsKept) : s.ageing.claimsKept :=
  List.foldlRecOn _ _ h fun _ ht p _ => (ht.setPeer p _).recordLimitDue p

theorem claimAgeLimitDue (h : s.claimsKept) (p : Station) (v : VoiceIx) : (s.claimAgeLimitDue p v).claimsKept := by
  rw [State.claimAgeLimitDue]
  split
  · split
    · exact ite (fun _ => h) fun _ => h
    · exact h
  · exact h

/-! ## Link -/

theorem startFrame (h : s.claimsKept) : s.startFrame.claimsKept := by
  refine ite (fun _ => ?_) fun _ => h
  dsimp only
  split <;> exact h

theorem duplicate (h : s.claimsKept) : s.duplicate.claimsKept := by
  rw [State.duplicate]
  split <;> exact h

theorem checkFrame (h : s.claimsKept) (f : LinkFrame) : (s.checkFrame f).claimsKept :=
  ite (fun _ => h) fun _ => ite (fun _ => h) fun _ =>
    ite (fun _ => ite (fun _ => h.duplicate) fun _ => h) fun _ => h.goodFrame f

theorem takingEnds (h : s.claimsKept) (rx : Reception) : (s.takingEnds rx).claimsKept := by
  cases rx with
  | complete f => exact h.checkFrame f
  | short => exact h
  | framingError => exact h
  | levels _ => exact h

theorem readLevel (h : s.claimsKept) (level : Bool) : (s.readLevel level).claimsKept := by
  rw [State.readLevel]
  split
  · exact (h.withLink _).takingEnds _
  · exact h

theorem receiveFrame (h : s.claimsKept) (rx : Reception) : (s.receiveFrame rx).claimsKept := by
  refine ite (fun _ => ?_) fun _ => ?_
  · split
    · exact List.foldlRecOn _ _ h fun t ht level _ => ht.readLevel level
    · exact (h.withLink _).takingEnds _
  · split
    · exact ite (fun _ => h) fun _ => h
    · exact h

theorem stuckEntry (h : s.claimsKept) : s.stuckEntry.claimsKept := ite (fun _ => h) fun _ => h

theorem stuckReturn (h : s.claimsKept) : s.stuckReturn.claimsKept := ite (fun _ => h) fun _ => h

theorem periodicLeadDue (h : s.claimsKept) : s.periodicLeadDue.claimsKept := ite (fun _ => h) fun _ => h

theorem periodicKeyDue (h : s.claimsKept) : s.periodicKeyDue.claimsKept := ite (fun _ => h) fun _ => h

theorem quietHelloDue (h : s.claimsKept) : s.quietHelloDue.claimsKept := ite (fun _ => h) fun _ => h

theorem leadTriggerSynced (h : s.claimsKept) (heldChanged : Bool) : (s.leadTriggerSynced heldChanged).claimsKept :=
  (ite (fun _ => h.offerLead) fun _ => ite (fun _ => (h.withLink _).periodicLeadDue) fun _ => h).withLink _

theorem leadTriggerFree (h : s.claimsKept) (heldChanged : Bool) : (s.leadTriggerFree heldChanged).claimsKept :=
  ite (fun _ => h.offerLead) fun _ => h

theorem keyTrigger (h : s.claimsKept) (keyChanged : Bool) : (s.keyTrigger keyChanged).claimsKept :=
  ite (fun _ => (h.withLink _).offerKey) fun _ => (h.withLink _).periodicKeyDue

theorem quietTrigger (h : s.claimsKept) : s.quietTrigger.claimsKept := (h.withLink _).quietHelloDue

/-- R108: the link controller's work at a hop. -/
theorem linkHopWork (h : s.claimsKept) (synced : Bool) (sig : HopSignals) : (s.linkHopWork synced sig).claimsKept := by
  have hlead : (if synced then s.leadTriggerSynced sig.heldChanged else s.leadTriggerFree sig.heldChanged).claimsKept :=
    ite (fun _ => h.leadTriggerSynced _) fun _ => h.leadTriggerFree _
  exact (hlead.keyTrigger _).quietTrigger

end Sys2Proof.Machine.State.claimsKept
end

section
/-! PROOFS. The invariant of `ClaimsKept` through the changes of the part state, the commands and writes of the control port,
the stops of a sync loss and the resets. -/

namespace Sys2Proof.Machine

/-! ## Voices that are silent -/

/-- A voice that is in step and does not sound is silent. -/
theorem Voice.InStep.silent_of_not_sounding {vo : Voice} (h : vo.InStep) (hs : vo.eng.state.sounding = false) : vo.silent := by
  obtain ⟨hsounds, hnote⟩ := h
  rw [hs, Option.isSome_eq_false_iff, Option.isNone_iff_eq_none] at hsounds
  rw [hsounds] at hnote
  exact ⟨hsounds, hnote.symm, hs⟩

/-- R147: every voice is silent after a reset of any kind. -/
theorem State.silent_atReset (cause : StartCause) (straps : Straps) (q : List Instr) (v : VoiceIx) :
    (State.atReset cause straps q).voices[v].silent := by
  simp [State.atReset, Voice.reset, Voice.silent, VoicePlan.reset, Engine.reset, VoiceState.sounding]

/-! ## The voices at entry to STANDBY -/

/-- R135: a voice at entry to STANDBY. -/
def Voice.fadedIfSounding (vo : Voice) : Voice := if vo.eng.state.sounding then vo.toFade else vo

/-- One voice's part in the entry to STANDBY: a voice that does not sound is put back as it is, and offers nothing. -/
theorem State.fadeEntry_if_sounding {s t : State} {v : VoiceIx} (hv : t.voices[v] = s.voices[v]) :
    (if s.voices[v].eng.state.sounding then t.fadeEntry v else t)
      = t.putVoice v (s.voices[v].fadedIfSounding, s.voices[v].eng.state.sounding) := by
  rw [Voice.fadedIfSounding, State.putVoice]
  split
  · rw [State.fadeEntry, hv]
    rfl
  · rw [← hv, State.setVoice_self]
    rfl

/-- R135: over distinct voices, each is met as it stood. -/
theorem State.foldFadeEntry_eq (s : State) {vs : List VoiceIx} (hvs : vs.Nodup) (t : State)
    (ht : ∀ v ∈ vs, t.voices[v] = s.voices[v]) :
    vs.foldl (fun t v => if s.voices[v].eng.state.sounding then t.fadeEntry v else t) t
      = vs.foldl (fun t v => t.putVoice v (s.voices[v].fadedIfSounding, s.voices[v].eng.state.sounding)) t := by
  induction vs generalizing t with
  | nil => rfl
  | cons v vs ih =>
    obtain ⟨hv, hvs⟩ := List.nodup_cons.1 hvs
    rw [List.foldl_cons, List.foldl_cons, State.fadeEntry_if_sounding (ht v List.mem_cons_self)]
    refine ih hvs _ fun w hw => ?_
    rw [State.putVoice, State.offerSome_eq, ← ht w (List.mem_cons_of_mem v hw)]
    exact (State.setVoice_get ..).trans (if_neg (ne_of_mem_of_not_mem hw hv))

/-- R135: every voice is faded if it sounds. -/
theorem State.fadeSounding_eq (s : State) : ∃ link, s.fadeSounding
    = { s with voices := Vector.ofFn fun v => s.voices[v].fadedIfSounding, link := link } := by
  rw [State.fadeSounding, State.foldFadeEntry_eq s (List.nodup_finRange 8) s fun _ _ => rfl, State.foldPutVoice_spec]
  exact ⟨_, rfl⟩

namespace State.claimsKept

variable {s : State}

/-! ## Resets -/

theorem atReset (cause : StartCause) (straps : Straps) (q : List Instr) : (State.atReset cause straps q).claimsKept :=
  .of_silent (State.silent_atReset cause straps q) _ fun h => nomatch h

theorem holdReset (s : State) (pin power seen : Bool) : (s.holdReset pin power seen).claimsKept :=
  atReset s.sc.cause { station := s.sc.station, solo := s.sc.solo } s.pending

theorem wordReset (s : State) : s.wordReset.claimsKept := atReset .word { station := s.sc.station, solo := s.sc.solo } s.pending

theorem powerOn (s : State) (phase : PowerOnPhase) : (s.powerOn phase).claimsKept := by
  cases phase with
  | rise => exact holdReset s _ _ _
  | valid straps => exact ite (fun _ => holdReset s _ _ _) fun _ => atReset _ _ _

theorem pinRelease (s : State) (straps : Straps) : (s.pinRelease straps).claimsKept :=
  ite (fun _ => holdReset s _ _ _) fun _ => atReset _ _ _

/-! ## Part states -/

/-- A change of the part state or the measurement that starts outside LIVE. -/
theorem changePart (h : s.claimsKept) (hpart : s.sc.part ≠ .live) {t : State} (hvoices : t.voices = s.voices)
    (hm : t.inp.measurement.isSome = true → t.sc.part = .calibrate) : t.claimsKept :=
  .of_silent (fun v => by rw [hvoices]; exact h.silent_of_ne_live hpart v) _ hm

theorem initDone (h : s.claimsKept) : s.initDone.claimsKept := by
  refine ite (fun hinit => ?_) fun _ => h
  refine h.changePart (by rw [hinit]; decide) rfl fun hs => ?_
  have hcalibrate := h.measures hs
  rw [hinit] at hcalibrate
  cases hcalibrate

/-- R162, R163: an entry to LIVE from a state in which no measurement is in progress. -/
theorem enterLive (h : s.claimsKept) (hpart : s.sc.part ≠ .calibrate) : s.enterLive.claimsKept := by
  have hlive : State.claimsKept { s with sc := { s.sc with part := .live, liveEntry := true } } :=
    { h with outsideLive := fun hne => absurd rfl hne, measures := fun hm => absurd (h.measures hm) hpart }
  rcases s.enterLive_cases with ⟨-, henter⟩ | ⟨-, -, link, -, henter⟩
  · rw [henter]
    exact hlive
  · rw [henter]
    exact hlive.withLink link

theorem returnToLive (h : s.claimsKept) (hpart : s.sc.part ≠ .calibrate) : s.returnToLive.claimsKept :=
  (h.enterLive hpart).offer _

/-- R11, R12: a measurement ends in CALIBRATE, where no voice holds a claim. -/
theorem endCalibration (h : s.claimsKept) (hm : s.inp.measurement.isSome = true) : s.endCalibration.claimsKept :=
  h.changePart (by rw [h.measures hm]; decide) rfl fun hs => nomatch hs

theorem abandonCalibration (h : s.claimsKept) (hm : s.inp.measurement.isSome = true) : s.abandonCalibration.claimsKept :=
  endCalibration (s := { s with inp := { s.inp with calAborted := true } }) h hm

/-! ## Commands -/

theorem takeGo (h : s.claimsKept) (hpart : s.sc.part ≠ .calibrate) : s.takeGo.claimsKept :=
  ite (fun _ => h.enterLive hpart) fun _ => h

theorem takeCalibrate (h : s.claimsKept) (hpart : s.sc.part ≠ .live) (length : Nat) :
    (s.takeCalibrate length).claimsKept := by
  have hbegun : State.claimsKept { s with
      sc := { s.sc with part := .calibrate }
      inp := { s.inp with measurement := some { length := length, sum := 0, taken := 0 } } } :=
    h.changePart hpart rfl fun _ => rfl
  exact ite (fun _ => hbegun) fun _ => hbegun.abandonCalibration rfl

/-- R135, R164: an entry to STANDBY takes every sounding voice into FADE, so that no claim is left. -/
theorem takeStandby (h : s.claimsKept) (hpart : s.sc.part ≠ .calibrate) : s.takeStandby.claimsKept := by
  have hsilent (v : VoiceIx) : s.voices[v].fadedIfSounding.silent := by
    rw [Voice.fadedIfSounding]
    split
    case isTrue => exact s.voices[v].silent_toFade
    case isFalse hs => exact (h.inStep v).silent_of_not_sounding (Bool.eq_false_of_not_eq_true hs)
  have hfaded : (State.fadeSounding { s with sc := { s.sc with part := .standby } }).claimsKept := by
    obtain ⟨link, hfade⟩ := State.fadeSounding_eq { s with sc := { s.sc with part := .standby } }
    rw [hfade]
    exact .of_silent (fun v => by simpa using hsilent v) _ fun hm => absurd (h.measures hm) hpart
  exact hfaded.offer _

theorem takePin (h : s.claimsKept) (arg : Byte) : (s.takePin arg).claimsKept := by
  rw [State.takePin]
  split
  · exact h.setContext _ _ _
  · exact h

theorem takeUnpin (h : s.claimsKept) : s.takeUnpin.claimsKept := ite (fun _ => h) fun _ => h.releasePin

theorem takeClear (h : s.claimsKept) : s.takeClear.claimsKept :=
  h.mapVoices fun _ _ => .of_plan rfl rfl

/-- 10.3: a command that is taken; none is in CALIBRATE, and a calibration is not begun in LIVE. -/
theorem takeCommand (h : s.claimsKept) {c : Command} (hc : c.takenIn s.sc.part = true) (arg : Byte) :
    (s.takeCommand c arg).claimsKept := by
  have hpart : s.sc.part ≠ .calibrate := fun hp => by
    rw [hp] at hc
    cases c <;> cases hc
  cases c with
  | go => exact h.takeGo hpart
  | calibrateShort => exact h.takeCalibrate (fun hp => by rw [hp] at hc; cases hc) _
  | calibrateLong => exact h.takeCalibrate (fun hp => by rw [hp] at hc; cases hc) _
  | standby => exact h.takeStandby hpart
  | wake => exact h.returnToLive hpart
  | pin => exact h.takePin arg
  | unpin => exact h.takeUnpin
  | clear => exact h.takeClear

theorem endTransaction (h : s.claimsKept) : s.endTransaction.claimsKept := h

theorem commandWrite (h : s.claimsKept) (c : Command) (arg : Byte) : (s.commandWrite c arg).claimsKept :=
  ite (fun _ => h) fun _ => ite (fun hc => h.endTransaction.takeCommand hc arg) fun _ => h

theorem codeWrite (h : s.claimsKept) (code arg : Byte) : (s.codeWrite code arg).claimsKept := by
  rw [State.codeWrite]
  split
  · exact h.commandWrite _ arg
  · exact ite (fun _ => h) fun _ => h

/-! ## Writes -/

theorem setVoiceCfg (h : s.claimsKept) (v : VoiceIx) (f : VoiceConfig → VoiceConfig) : (s.setVoiceCfg v f).claimsKept :=
  h.setVoice (.of_plan rfl rfl)

/-- R129: the enable bits of a write. -/
theorem writeEnables (h : s.claimsKept) (data : Word16) : (s.writeEnables data).claimsKept :=
  h.foldPutVoice fun v => s.voices[v].keepsOrDrops_setEnable _

/-- R159: a stored word; COLLIDE decides which notes collide, and is stored where no voice holds a claim. -/
theorem storeWord (h : s.claimsKept) {n : WordName} (hn : n.access = .setup → s.sc.part = .setup) (w : Word16) :
    (s.storeWord n w).claimsKept := by
  cases n with
  | collide =>
    have hpart : s.sc.part ≠ .live := by rw [hn rfl]; decide
    exact .of_silent (h.silent_of_ne_live hpart) _ h.measures
  | lane v => exact h.setVoiceCfg v _
  | voiceCfg v => exact h.setVoiceCfg v _
  | voiceGain v => exact h.setVoiceCfg v _
  | enable => exact h.writeEnables w
  | keycfg => exact setContext (s := { s with cfg := { s.cfg with keycfg := keyConfigOf w } }) h _ _ _
  | _ => exact h

theorem writeData (h : s.claimsKept) (addr : BitVec 6) (w : Word16) : (s.writeData addr w).claimsKept := by
  refine ite (fun _ => h) fun _ => ?_
  split
  case h_4 => exact ite (fun hpart => h.endTransaction.storeWord (fun _ => hpart) w) fun _ => h
  case h_5 hlive =>
    exact ite (fun _ => h) fun _ => h.endTransaction.storeWord (fun hsetup => nomatch hlive.symm.trans hsetup) w
  case h_6 => exact h.codeWrite _ _
  case h_7 => exact wordReset _
  all_goals exact h

/-! ## Reads and the port's lines -/

theorem beginRead (h : s.claimsKept) (addr : BitVec 6) : (s.beginRead addr).claimsKept := by
  rw [State.beginRead]
  split <;> exact h

theorem completeAttn (h : s.claimsKept) : s.completeAttn.claimsKept := by
  rw [State.completeAttn]
  split <;> exact h

theorem completeContext (h : s.claimsKept) : s.completeContext.claimsKept := by
  rw [State.completeContext]
  split <;> exact h

theorem endRead (h : s.claimsKept) : s.endRead.claimsKept := h.completeAttn.completeContext

theorem takeHeader (h : s.claimsKept) (bits : List Bool) : (s.takeHeader bits).claimsKept :=
  ite (fun _ => h.beginRead _) fun _ => h

theorem endOfBits (h : s.claimsKept) (bits : List Bool) : (s.endOfBits bits).claimsKept :=
  ite (fun _ => ite (fun _ => h.endRead) fun _ => h.writeData _ _) fun _ => h

theorem withPort (h : s.claimsKept) (p : Option (List Bool)) : State.claimsKept { s with sc := { s.sc with port := p } } := h

theorem portEvent (h : s.claimsKept) (e : PortEvent) : (s.portEvent e).claimsKept := by
  unfold State.portEvent
  split
  · exact h
  · exact (h.withPort _).takeHeader _
  · exact (h.withPort _).endOfBits _
  · exact h
  · exact h

theorem transaction (h : s.claimsKept) (bits : BitVec 24) : (s.transaction bits).claimsKept :=
  ite (fun _ => (h.beginRead _).endRead) fun _ => h.writeData _ _

theorem abandonWhole (h : s.claimsKept) (how : Abandonment) : (s.abandonWhole how).claimsKept := by
  cases how with
  | count nbits bits => exact ite (fun _ => h.transaction bits) fun _ => h
  | byReset => exact h

/-- R157: writes may take effect on the port's lines, one after another. -/
theorem abandon (h : s.claimsKept) (lines : List PortEvent) (ended : Option Abandonment) :
    (s.abandon lines ended).claimsKept := by
  have hlines : (lines.foldl State.portEvent s).claimsKept := List.foldlRecOn _ _ h fun _ ht e _ => ht.portEvent e
  cases ended with
  | some how => exact hlines.abandonWhole how
  | none => exact hlines

/-! ## Sync loss -/

/-- R136: every voice is stopped. -/
theorem stopVoices (h : s.claimsKept) : s.stopVoices.claimsKept :=
  h.foldPutVoice fun v => s.voices[v].keepsOrDrops_stop

theorem lossLead (h : s.claimsKept) : s.lossLead.claimsKept :=
  (ite (fun _ => h.offerLead) fun _ => h : State.claimsKept (if s.link.lastVoiced then s.offerLead else s)).withLink _

theorem lossCalibration (h : s.claimsKept) : s.lossCalibration.claimsKept :=
  ite (fun hm => h.abandonCalibration hm) fun _ => h

theorem syncLoss (h : s.claimsKept) (leadFirst : Bool) : (s.syncLoss leadFirst).claimsKept := by
  have hloss : s.lossBlocks.lossCalibration.claimsKept := lossCalibration (s := s.lossBlocks) h
  exact ite (fun _ => hloss.lossLead.stopVoices) fun _ => hloss.stopVoices.lossLead

end State.claimsKept

end Sys2Proof.Machine
end

section
/-! PROOFS. The planner's contests and the hand-over (R68, R72 to R76, R80 to R90): a decided note passes against every note
decided before it unless its voice is doubled, and after the hand-over a voice claims what it has decided. -/

namespace Sys2Proof.Machine

/-! ## One contest -/

/-- What a contest under the test `pass` may make of voice `a`: its claim and engine stand, and a decided note has passed
unless the voice is doubled (R84, R86 to R88). -/
def Voice.contestOutcome (pass : Nat → Bool) (a b : Voice) : Prop :=
  b.plan.claim = a.plan.claim ∧ b.eng = a.eng ∧ ∀ n, b.plan.decided = some n → b.plan.doubled = true ∨ pass n = true

/-- A voice that takes a candidate for its decided note, where that candidate passed. -/
theorem Voice.contestOutcome.of_passes {pass : Nat → Bool} {a b : Voice} (hclaim : b.plan.claim = a.plan.claim)
    (heng : b.eng = a.eng) (hpass : b.plan.decided.any pass = true) : a.contestOutcome pass b :=
  ⟨hclaim, heng, fun n hn => .inr (by simpa [hn] using hpass)⟩

theorem Voice.contestOutcome_byPolicy (pass : Nat → Bool) (double : Bool) (vo : Voice) :
    vo.contestOutcome pass (vo.byPolicy double) := by
  rw [Voice.byPolicy]
  split
  · exact ⟨rfl, rfl, fun _ _ => .inl rfl⟩
  · exact ⟨rfl, rfl, fun _ hn => nomatch hn⟩

/-- R86: the contest of a voice whose on-alternate flag is 0. -/
theorem Voice.contestOutcome_contestPrimary (pass : Nat → Bool) (double : Bool) (vo : Voice) :
    vo.contestOutcome pass (vo.contestPrimary double (vo.plan.primary.any pass) (vo.plan.alternate.any pass)) := by
  rw [Voice.contestPrimary]
  split
  case isTrue hpass => exact .of_passes rfl rfl hpass
  case isFalse =>
    split
    case isTrue hpass => exact .of_passes rfl rfl hpass
    case isFalse => exact vo.contestOutcome_byPolicy pass double

/-- R88: the contest of a voice on its alternate. -/
theorem Voice.contestOutcome_contestAlternate (pass : Nat → Bool) (settle : Nat) (double : Bool) (vo : Voice) :
    vo.contestOutcome pass
      (vo.contestAlternate settle double (vo.plan.primary.any pass) (vo.plan.alternate.any pass)) := by
  rw [Voice.contestAlternate]
  split
  case isTrue hprimary =>
    dsimp only
    split
    · exact .of_passes rfl rfl hprimary
    · split
      case isTrue hpass => exact .of_passes rfl rfl hpass
      case isFalse => exact .of_passes rfl rfl hprimary
  case isFalse =>
    split
    case isTrue hpass => exact .of_passes rfl rfl hpass
    case isFalse => exact vo.contestOutcome_byPolicy pass double

/-- R80: one voice's contest, and that only a contested voice has a decided note after it. -/
theorem State.contestVoice_outcome (s : State) (set : List Sounding) (vo : Voice) :
    vo.contestOutcome (passes s.cfg.collideClass s.sc.station set vo) (s.contestVoice set vo)
      ∧ ((s.contestVoice set vo).plan.decided.isSome = true → vo.contested s.sc.part s.pt.record.voiced = true) := by
  rw [State.contestVoice]
  split
  case isTrue hcontested =>
    refine ⟨?_, fun _ => hcontested⟩
    split
    · exact vo.contestOutcome_contestAlternate _ _ _
    · exact vo.contestOutcome_contestPrimary _ _
  case isFalse => exact ⟨⟨rfl, rfl, fun _ hn => nomatch hn⟩, fun hn => nomatch hn⟩

/-! ## All contests -/

theorem Voice.mem_ownEntry {vo : Voice} {n : Nat} (h : vo.plan.decided = some n) (v : VoiceIx) :
    .ownVoice v n ∈ vo.ownEntry v := by
  rw [Voice.ownEntry, h]
  exact List.mem_singleton_self _

/-- R82: of the voices given, in ascending order, each has its contest against a set that holds the notes decided before
it; the others are left as they are. -/
theorem State.contestFrom_spec (s : State) (vs : List VoiceIx) (hvs : vs.Pairwise (· < ·)) (set : List Sounding)
    (voices : Vector Voice 8) :
    (∀ w : VoiceIx, w ∉ vs → (s.contestFrom vs set voices)[w] = voices[w]) ∧
    ∀ w ∈ vs, ∃ set', set ⊆ set' ∧ (s.contestFrom vs set voices)[w] = s.contestVoice set' voices[w]
      ∧ ∀ v ∈ vs, v < w → ∀ n, (s.contestFrom vs set voices)[v].plan.decided = some n → .ownVoice v n ∈ set' := by
  induction vs generalizing set voices with
  | nil => exact ⟨fun _ _ => rfl, fun _ hw => nomatch hw⟩
  | cons v vs ih =>
    obtain ⟨hfirst, hvs⟩ := List.pairwise_cons.1 hvs
    rw [State.contestFrom]
    set vo := s.contestVoice set voices[v] with hvo
    have hself : (voices.set v vo)[v] = vo := by simp
    have hother (w : VoiceIx) (hw : w ≠ v) : (voices.set v vo)[w] = voices[w] := by
      simp [Vector.getElem_set_ne, Fin.val_ne_of_ne hw.symm]
    obtain ⟨hrest, hcontest⟩ := ih hvs (set ++ vo.ownEntry v) (voices.set v vo)
    have hv : (s.contestFrom vs (set ++ vo.ownEntry v) (voices.set v vo))[v] = vo :=
      (hrest v fun hmem => (hfirst v hmem).false).trans hself
    refine ⟨fun w hw => ?_, fun w hw => ?_⟩
    · obtain ⟨hne, hmem⟩ := List.ne_and_not_mem_of_not_mem_cons hw
      rw [hrest w hmem, hother w hne]
    rcases List.mem_cons.1 hw with rfl | hw
    · refine ⟨set, fun _ he => he, hv, fun u hu hlt => ?_⟩
      rcases List.mem_cons.1 hu with rfl | hu
      · exact (hlt.false).elim
      · exact ((hfirst u hu).asymm hlt).elim
    · obtain ⟨set', hset, hvoice, hbefore⟩ := hcontest w hw
      rw [hother w (hfirst w hw).ne'] at hvoice
      refine ⟨set', fun e he => hset (List.mem_append_left _ he), hvoice, fun u hu hlt n hn => ?_⟩
      rcases List.mem_cons.1 hu with rfl | hu
      · rw [hv] at hn
        exact hset (List.mem_append_right _ (Voice.mem_ownEntry hn u))
      · exact hbefore u hu hlt n hn

/-! ## The planner's work -/

/-- R90 for decided notes: two of them collide only if the voice of the higher index is doubled. -/
def DecidedApart (byClass : Bool) (voices : Vector Voice 8) : Prop :=
  ∀ v w : VoiceIx, v < w → ∀ m n, voices[v].plan.decided = some m → voices[w].plan.decided = some n →
    collides byClass m n = true → voices[w].plan.doubled = true

/-- What the planner leaves of voice `a` for the hand-over: its claim and engine state stand, and only a contested voice has
a decided note. -/
def Voice.planned (part : PartState) (voiced : Bool) (a b : Voice) : Prop :=
  b.plan.claim = a.plan.claim ∧ b.eng.state = a.eng.state
    ∧ (b.plan.decided.isSome = true → a.contested part voiced = true)

/-- R62 to R67: what a voice's target, shift and period leave alone. -/
theorem Voice.computeShift_frame (rules : Vector IntervalRule 4) (deviation : Int) (pair : VoicedPair) (voiced : Bool)
    (vo : Voice) : (vo.computeShift rules deviation pair voiced).plan.claim = vo.plan.claim
      ∧ (vo.computeShift rules deviation pair voiced).plan.decided = vo.plan.decided
      ∧ (vo.computeShift rules deviation pair voiced).plan.doubled = vo.plan.doubled
      ∧ (vo.computeShift rules deviation pair voiced).eng.state = vo.eng.state := by
  rw [Voice.computeShift]
  split
  · exact ⟨rfl, rfl, rfl, rfl⟩
  · dsimp only
    split
    · exact ⟨rfl, rfl, rfl, rfl⟩
    · split <;> exact ⟨rfl, rfl, rfl, rfl⟩

/-- R82, R84: the contests of a hop leave the decided notes apart. -/
theorem State.contestAll_spec (s : State) (held : Nat) :
    (∀ v : VoiceIx, s.voices[v].planned s.sc.part s.pt.record.voiced (s.contestAll held).voices[v])
      ∧ DecidedApart s.cfg.collideClass (s.contestAll held).voices := by
  obtain ⟨-, hcontest⟩ := s.contestFrom_spec (List.finRange 8) (List.pairwise_lt_finRange 8) (s.soundingSet held) s.voices
  refine ⟨fun v => ?_, fun v w hvw m n hm hn hcollides => ?_⟩
  · obtain ⟨set', -, hvoice, -⟩ := hcontest v (List.mem_finRange v)
    obtain ⟨⟨hclaim, heng, -⟩, hdecides⟩ := s.contestVoice_outcome set' s.voices[v]
    rw [State.contestAll, hvoice]
    exact ⟨hclaim, by rw [heng], hdecides⟩
  · obtain ⟨set', -, hvoice, hbefore⟩ := hcontest w (List.mem_finRange w)
    have hentry : .ownVoice v m ∈ set' := hbefore v (List.mem_finRange v) hvw m hm
    obtain ⟨⟨-, -, hpass⟩, -⟩ := s.contestVoice_outcome set' s.voices[w]
    rw [State.contestAll, hvoice] at hn ⊢
    refine (hpass n hn).resolve_right fun hpasses => ?_
    have hloses := (passes_iff ..).1 hpasses _ hentry
    rw [losesTo_ownVoice, collides_comm, hcollides] at hloses
    cases hloses

theorem State.planVoices_of_none {s : State} (h : s.cu.held = none) :
    s.planVoices = { s with voices := Vector.ofFn fun v => s.voices[v].withoutCandidates } := by
  rw [State.planVoices, h]
  rfl

/-- R59, R80 to R88: with a held note the contests run on the candidates of the hop, and each voice's shift follows. -/
theorem State.planVoices_of_some {s : State} {held : Nat} (h : s.cu.held = some held) :
    ∃ contested : Vector Voice 8, s.planVoices = { s with
        voices := Vector.ofFn fun v =>
          contested[v].computeShift s.cfg.rules (s.deviation held) s.pt.lastVoiced s.pt.record.voiced }
      ∧ (∀ v : VoiceIx, s.voices[v].planned s.sc.part s.pt.record.voiced contested[v])
      ∧ DecidedApart s.cfg.collideClass contested := by
  obtain ⟨hplanned, hapart⟩ := State.contestAll_spec (s.mapVoices fun _ vo => vo.withCandidates s.cu.key held s.cfg.rules) held
  refine ⟨_, by simp only [State.planVoices, h, State.mapVoices, State.contestAll], fun v => ?_, hapart⟩
  obtain ⟨hclaim, hstate, hdecides⟩ := hplanned v
  rw [State.mapVoices_get] at hclaim hstate hdecides
  exact ⟨hclaim, hstate, hdecides⟩

/-- R55, R56: the planner's evaluation changes the voices alone, and leaves the decided notes apart; with no held note they
are those of the claims. -/
theorem State.claimsKept.planVoices {s : State} (h : s.claimsKept) :
    ∃ voices, s.planVoices = { s with voices := voices }
      ∧ (∀ v : VoiceIx, s.voices[v].planned s.sc.part s.pt.record.voiced voices[v])
      ∧ DecidedApart s.cfg.collideClass voices := by
  cases hheld : s.cu.held with
  | none =>
    refine ⟨_, State.planVoices_of_none hheld, fun v => ?_, fun v w hvw m n hm hn hcollides => ?_⟩
    · have hclaim (hd : s.voices[v].plan.decided.isSome = true) : s.voices[v].plan.claim.isSome = true := by
        rwa [← Option.isSome_map, (h.inStep v).note]
      rw [Fin.getElem_fin (Vector.ofFn _), Vector.getElem_ofFn]
      exact ⟨rfl, rfl, fun hd => by rw [Voice.contested, hclaim hd, Bool.true_or]⟩
    · rw [Fin.getElem_fin, Vector.getElem_ofFn] at hm hn ⊢
      exact h.apart v w hvw ((Voice.clashes_iff ..).2 ⟨m, n, (h.inStep v).note.trans hm, (h.inStep w).note.trans hn, hcollides⟩)
  | some held =>
    obtain ⟨contested, hplan, hplanned, hapart⟩ := State.planVoices_of_some hheld
    have frame (v : VoiceIx) :=
      contested[v].computeShift_frame s.cfg.rules (s.deviation held) s.pt.lastVoiced s.pt.record.voiced
    refine ⟨_, hplan, fun v => ?_, fun v w hvw m n hm hn hcollides => ?_⟩
    · obtain ⟨hclaim, hstate, hdecides⟩ := hplanned v
      obtain ⟨hclaim', hdecided', -, hstate'⟩ := frame v
      rw [Fin.getElem_fin (Vector.ofFn _), Vector.getElem_ofFn]
      exact ⟨hclaim'.trans hclaim, hstate'.trans hstate, by rw [hdecided']; exact hdecides⟩
    · obtain ⟨-, hdecided, -, -⟩ := frame v
      obtain ⟨-, hdecided', hdoubled', -⟩ := frame w
      rw [Fin.getElem_fin, Vector.getElem_ofFn] at hm hn ⊢
      rw [hdoubled']
      exact hapart v w hvw m n (hdecided.symm.trans hm) (hdecided'.symm.trans hn) hcollides

/-! ## The hand-over to one voice -/

/-- R131, R140: a grain start in ONSET, starved or not, leaves the plan and the state. -/
theorem Voice.startGrain_of_onset (env : RenderEnv) {vo : Voice} (h : vo.eng.state = .onset) :
    (vo.startGrain env).1.plan = vo.plan ∧ (vo.startGrain env).1.eng.state = .onset := by
  rw [Voice.startGrain]
  split
  · refine ⟨rfl, ?_⟩
    rw [Engine.addGrain]
    split <;> exact h
  · rw [Voice.starved, h]
    exact ⟨rfl, h⟩

theorem Voice.enterOnset_frame (env : RenderEnv) (vo : Voice) :
    (vo.enterOnset env).plan = vo.plan ∧ (vo.enterOnset env).eng.state = .onset :=
  Voice.startGrain_of_onset env rfl

/-- R130: a lost lead takes a sounding voice to HOLD or to FADE. -/
theorem Voice.loseLead_cases (holdLimit : Nat) (vo : Voice) : ((vo.loseLead holdLimit).plan = vo.plan
    ∧ (vo.loseLead holdLimit).eng.state.sounding = true) ∨ vo.loseLead holdLimit = vo.toFade := by
  rw [Voice.loseLead]
  split
  · exact .inl ⟨rfl, rfl⟩
  · exact .inr rfl

/-- R130: a gain command lets a sounding voice sound on with its plan as it was, for which it must be RAISE, or takes it to
FADE. -/
theorem Voice.gainCommand_of_sounding (env : RenderEnv) (raise voiced : Bool) {vo : Voice}
    (h : vo.eng.state.sounding = true) : (raise = true ∧ (vo.gainCommand env raise voiced).plan = vo.plan
      ∧ (vo.gainCommand env raise voiced).eng.state.sounding = true) ∨ vo.gainCommand env raise voiced = vo.toFade := by
  unfold Voice.gainCommand
  split
  case h_6 | h_7 | h_11 => exact .inl ⟨rfl, rfl, h⟩
  case h_8 => exact .inl ⟨rfl, rfl, rfl⟩
  case h_9 | h_10 => exact (vo.loseLead_cases _).imp_left fun hhold => ⟨rfl, hhold⟩
  case h_12 => exact .inr rfl
  all_goals simp_all [VoiceState.sounding]

/-- R130, R131: a gain command that is RAISE at a voiced hop takes an IDLE or FADE voice into ONSET, and any other leaves a
voice that does not sound alone. -/
theorem Voice.gainCommand_of_not_sounding (env : RenderEnv) {raise voiced : Bool} {vo : Voice}
    (h : vo.eng.state.sounding = false)
    (hraise : raise = true → voiced = true ∧ (vo.eng.state = .idle ∨ vo.eng.state = .fade)) :
    vo.gainCommand env raise voiced = if raise then vo.enterOnset env else vo := by
  cases raise with
  | true => obtain ⟨rfl, hs | hs⟩ := hraise rfl <;> simp [Voice.gainCommand, hs]
  | false => cases hs : vo.eng.state <;> simp_all [Voice.gainCommand, VoiceState.sounding]

/-- R72 to R76: the claim of a voice that sounds after its gain command is on its decided note. -/
theorem Voice.claimWork_of_sounding (cfg : Setup) (v : VoiceIx) {before after : Voice}
    (hsounds : after.eng.state.sounding = true) (hdecided : after.plan.decided.isSome = true)
    (hclaim : before.eng.state.sounding = true → after.plan.claim.isSome = true) :
    (Voice.claimWork cfg v before after).1.InStep
      ∧ (Voice.claimWork cfg v before after).1.plan.decided = after.plan.decided
      ∧ (Voice.claimWork cfg v before after).1.plan.doubled = after.plan.doubled := by
  obtain ⟨n, hn⟩ := Option.isSome_iff_exists.1 hdecided
  rw [Voice.claimWork, if_pos hsounds, if_pos hsounds]
  split
  case isTrue hbefore =>
    obtain ⟨c, hc⟩ := Option.isSome_iff_exists.1 (hclaim hbefore)
    simp only [hc, hn]
    split
    case isTrue hnote =>
      have hafter : after.InStep := ⟨by rw [hc, hsounds]; rfl, by rw [hc, hn, hnote]; rfl⟩
      obtain ⟨-, hdecided, hdoubled, -⟩ := after.sameClaim_claimStands cfg v
      exact ⟨hafter.of_sameClaim (after.sameClaim_claimStands cfg v), hdecided.trans hn, hdoubled⟩
    case isFalse => exact ⟨⟨hsounds.symm, hn.symm⟩, hn, rfl⟩
  case isFalse =>
    simp only [hn]
    exact ⟨⟨hsounds.symm, hn.symm⟩, hn, rfl⟩

/-- R72 to R76: a voice that sounds neither before nor after its gain command, or has entered FADE, is left as it is. -/
theorem Voice.claimWork_of_not_sounding (cfg : Setup) (v : VoiceIx) {before after : Voice}
    (h : after.eng.state.sounding = false) : (Voice.claimWork cfg v before after).1 = after := by
  simp only [Voice.claimWork, h, Bool.false_eq_true, if_false]
  split <;> rfl

/-- R80: a voice with no claim is contested at a voiced hop in LIVE, from IDLE or FADE. -/
theorem Voice.contested_without_claim {part : PartState} {voiced : Bool} {vo : Voice} (h : vo.plan.claim.isSome = false)
    (hcontested : vo.contested part voiced = true) :
    part = .live ∧ voiced = true ∧ (vo.eng.state = .idle ∨ vo.eng.state = .fade) := by
  simp only [Voice.contested, h, Bool.false_or, Bool.and_eq_true, Bool.or_eq_true, decide_eq_true_eq] at hcontested
  obtain ⟨⟨hpart, hvoiced⟩, hstate⟩ := hcontested
  exact ⟨hpart, hvoiced, hstate.imp_right And.left⟩

/-- What the hand-over makes of a planned voice `b`: a silent voice, or one in step that has decided what `b` has, is as
doubled, and was contested. -/
theorem Voice.handOver_spec (env : RenderEnv) (cfg : Setup) {part : PartState} {voiced : Bool} (v : VoiceIx) {a b : Voice}
    (ha : a.InStep) (hb : a.planned part voiced b) :
    (b.handOver env cfg voiced v).1.silent ∨
      ((b.handOver env cfg voiced v).1.InStep
        ∧ (b.handOver env cfg voiced v).1.plan.decided = b.plan.decided
        ∧ (b.handOver env cfg voiced v).1.plan.doubled = b.plan.doubled
        ∧ a.contested part voiced = true) := by
  obtain ⟨hsounds, -⟩ := ha
  obtain ⟨hclaim, hstate, hdecides⟩ := hb
  rw [Voice.handOver]
  set loaded : Voice := { b with eng := { b.eng with reload := b.plan.period } }
  have hloaded : b.plan.claim.isSome = loaded.eng.state.sounding := by rw [hclaim, hsounds, ← hstate]
  have sounds_on {after : Voice} (hafter : after.plan = b.plan) (hon : after.eng.state.sounding = true)
      (hd : b.plan.decided.isSome = true) : (Voice.claimWork cfg v loaded after).1.InStep
        ∧ (Voice.claimWork cfg v loaded after).1.plan.decided = b.plan.decided
        ∧ (Voice.claimWork cfg v loaded after).1.plan.doubled = b.plan.doubled ∧ a.contested part voiced = true := by
    obtain ⟨hinStep, hdecided, hdoubled⟩ := Voice.claimWork_of_sounding cfg v hon (by rwa [hafter])
      fun hbefore => by rw [hafter, hloaded, hbefore]
    rw [hafter] at hdecided hdoubled
    exact ⟨hinStep, hdecided, hdoubled, hdecides hd⟩
  cases hs : loaded.eng.state.sounding with
  | true =>
    rcases Voice.gainCommand_of_sounding env b.plan.decided.isSome voiced hs with ⟨hd, hafter, hon⟩ | hfade
    · exact .inr (sounds_on hafter hon hd)
    · rw [hfade, Voice.claimWork_of_not_sounding cfg v rfl]
      exact .inl loaded.silent_toFade
  | false =>
    rw [hs] at hloaded
    have enters (hd : b.plan.decided.isSome = true) : voiced = true ∧ (b.eng.state = .idle ∨ b.eng.state = .fade) := by
      rw [hstate]
      exact (Voice.contested_without_claim (by rw [← hclaim, hloaded]) (hdecides hd)).2
    rw [Voice.gainCommand_of_not_sounding env hs enters]
    split
    case isTrue hd =>
      obtain ⟨hplan, honset⟩ := loaded.enterOnset_frame env
      exact .inr (sounds_on hplan (by rw [honset]; rfl) hd)
    case isFalse hd =>
      rw [Voice.claimWork_of_not_sounding cfg v hs]
      exact .inl ⟨Option.not_isSome_iff_eq_none.1 (by simp [loaded, hloaded]), Option.not_isSome_iff_eq_none.1 hd, hs⟩

/-! ## The planner's and the renderer's work of a hop -/

/-- Voices handed over after contests that left the decided notes apart keep the invariant: their claims are on those notes,
and a voice that has one was contested, so that outside LIVE it held one before. -/
theorem ClaimsKept.of_handOver {voices planned handed : Vector Voice 8} {byClass measuring voiced : Bool} {part : PartState}
    (h : ClaimsKept voices byClass part measuring) (hapart : DecidedApart byClass planned)
    (hhanded : ∀ v : VoiceIx, handed[v].silent ∨
      (handed[v].InStep ∧ handed[v].plan.decided = planned[v].plan.decided
        ∧ handed[v].plan.doubled = planned[v].plan.doubled ∧ voices[v].contested part voiced = true)) :
    ClaimsKept handed byClass part measuring where
  inStep v := (hhanded v).elim Voice.silent.inStep And.left
  outsideLive hpart v := by
    rcases hhanded v with ⟨hclaim, -, -⟩ | ⟨-, -, -, hcontested⟩
    · exact hclaim
    · have hnone : voices[v].plan.claim.isSome = false := by rw [h.outsideLive hpart v]; rfl
      exact absurd (Voice.contested_without_claim hnone hcontested).1 hpart
  measures := h.measures
  apart v w hvw hclash := by
    obtain ⟨m, n, hm, hn, hcollides⟩ := (Voice.clashes_iff ..).1 hclash
    have claimed {u : VoiceIx} {k : Nat} (hk : handed[u].plan.claim.map (·.note) = some k) :
        planned[u].plan.decided = some k ∧ handed[u].plan.doubled = planned[u].plan.doubled := by
      rcases hhanded u with ⟨hclaim, -, -⟩ | ⟨⟨-, hnote⟩, hdecided, hdoubled, -⟩
      · rw [hclaim] at hk
        cases hk
      · exact ⟨hdecided.symm.trans (hnote.symm.trans hk), hdoubled⟩
    obtain ⟨hw, hdoubled⟩ := claimed hn
    rw [hdoubled]
    exact hapart v w hvw m n (claimed hm).1 hw hcollides

/-- R68, R90: after the planner's and the renderer's work own claims are apart, for they are on the decided notes. -/
theorem State.claimsKept.plannerWork {s : State} (h : s.claimsKept) : s.plannerWork.claimsKept := by
  obtain ⟨planned, hplan, hplanned, hapart⟩ := h.planVoices
  rw [State.plannerWork, hplan]
  rw [State.handOverAll, State.foldAllVoices_spec (fun v => planned[v].handOver _ _ _ v)]
  refine ClaimsKept.of_handOver (voiced := s.pt.record.voiced) h hapart fun v => ?_
  rw [Fin.getElem_fin (Vector.ofFn _), Vector.getElem_ofFn]
  exact Voice.handOver_spec _ _ v (h.inStep v) (hplanned v)

end Sys2Proof.Machine
end

section
/-! PROOFS. R90 through every step: the invariant of `ClaimsKept` through the hops, the received samples and the events of one
voice, and the obligation. -/

namespace Sys2Proof.Machine

namespace State.claimsKept

variable {s : State}

/-! ## Hops -/

theorem onsetWork (h : s.claimsKept) : s.onsetWork.claimsKept :=
  ite (fun hwakes => h.returnToLive (by rw [hwakes.1]; decide)) fun _ => h

theorem atPlace (h : s.claimsKept) (o : HopOrder) (p : Place) : (s.atPlace o p).claimsKept := by
  have hage : (if o.ageing = p then s.ageing else s).claimsKept := ite (fun _ => h.ageing) fun _ => h
  exact ite (fun _ => hage.onsetWork) fun _ => hage

theorem ageAtPlace (h : s.claimsKept) (o : HopOrder) (p : Place) : (s.ageAtPlace o p).claimsKept :=
  ite (fun _ => h.ageing) fun _ => h

theorem trackerWork (h : s.claimsKept) : s.trackerWork.claimsKept := h

theorem withAudioPort (h : s.claimsKept) (a : AudioPort) : State.claimsKept { s with ap := a } := h

/-- R6: the blocks of a synced hop, one after another. -/
theorem syncedHopWork (h : s.claimsKept) (o : HopOrder) : (s.syncedHopWork o).claimsKept := by
  have hcontext := ((h.withAudioPort { s.ap with hopCount := 0 }).trackerWork.atPlace o .beforeContext).contextWork
  exact (((hcontext.atPlace o .afterContext).linkHopWork true _).atPlace o .afterLink).plannerWork.atPlace o .afterPlanner

theorem syncedHopDue (h : s.claimsKept) (o : HopOrder) : (s.syncedHopDue o).claimsKept :=
  ite (fun _ => h.syncedHopWork o) fun _ => h

theorem settleHop (h : s.claimsKept) : s.settleHop.claimsKept := h.syncedHopDue _

theorem freeHop (h : s.claimsKept) (o : HopOrder) : (s.freeHop o).claimsKept := by
  refine ite (fun _ => ?_) fun _ => h
  have hcontext := (h.ageAtPlace o .beforeContext).contextWork
  exact (((hcontext.ageAtPlace o .afterContext).linkHopWork false _).ageAtPlace o .afterLink).ageAtPlace o .afterPlanner

/-! ## Audio port -/

theorem frameSync (h : s.claimsKept) : s.frameSync.claimsKept := by
  have hsynced : (if s.settleHop.ap.syncPresent then s.settleHop else s.settleHop.syncReturn).claimsKept :=
    ite (fun _ => h.settleHop) fun _ => h.settleHop
  exact hsynced

/-- R10: a sample counts into a measurement in progress and begins or ends none. -/
theorem takeSample (h : s.claimsKept) (raw : Int) : (s.takeSample raw).claimsKept := by
  rw [State.claimsKept, State.takeSample_inp, InputStage.measure, Option.isSome_map]
  exact h

theorem measurementDue (h : s.claimsKept) : s.measurementDue.claimsKept := by
  rw [State.measurementDue]
  split
  case h_1 m hm =>
    have hin : (s.inp.complete m).measurement = s.inp.measurement := by
      rw [InputStage.complete]
      split
      · rfl
      · split <;> rfl
    have hcomplete : State.claimsKept { s with inp := s.inp.complete m } := by
      rw [State.claimsKept, hin]
      exact h
    exact ite (fun _ => hcomplete.endCalibration (by rw [hin, hm]; rfl)) fun _ => h
  case h_2 => exact h

theorem mix (h : s.claimsKept) (samples : Vector Int 8) : (s.mix samples).claimsKept := by
  have hmarked : (s.mapVoices fun v vo => vo.markClip
      (outside24 (Vector.ofFn fun b => s.scaledSum samples b : Vector Int 4)[vo.cfg.bus]) samples[v]).claimsKept :=
    h.mapVoices fun v vo => by
      rw [Voice.markClip]
      split
      · exact .of_plan rfl rfl
      · exact .rfl
  exact ite (fun _ => hmarked) fun _ => hmarked

theorem renderAndMix (h : s.claimsKept) (counts : Vector Bool 8) : (s.renderAndMix counts).claimsKept :=
  (h.foldPutVoice (f := fun v => ((s.voices[v].sampleWork s.renderEnv counts[v]).voice,
    (s.voices[v].sampleWork s.renderEnv counts[v]).drop)) fun v => s.voices[v].keepsOrDrops_sampleWork _ _).mix _

theorem sampleReceived (h : s.claimsKept) (slot : BitVec 32) (hopFirst : Option HopOrder) :
    (s.sampleReceived slot hopFirst).claimsKept := by
  refine ite (fun _ => ?_) fun _ => h.settleHop
  have hsample := (h.settleHop.takeSample (rawSample slot)).measurementDue
  cases hopFirst with
  | some o => exact (hsample.syncedHopDue o).renderAndMix _
  | none => exact hsample.renderAndMix _

theorem monitorExpiry (h : s.claimsKept) (leadFirst : Bool) : (s.monitorExpiry leadFirst).claimsKept :=
  ite (fun _ => h.settleHop.syncLoss leadFirst) fun _ => h

/-! ## Every command -/

theorem whenReleased (h : s.claimsKept) {f : State → State} {t : State} (ht : whenReleased f s = .next t)
    (hf : (f s).claimsKept) : t.claimsKept := by
  rcases whenReleased_cases ht with ⟨-, rfl⟩ | ⟨-, rfl⟩
  · exact hf
  · exact h

/-- Every command keeps the invariant where no voice is due to return to its primary (R88). -/
theorem exec (h : s.claimsKept) (hreturn : ∀ v : VoiceIx, s.voices[v].returnDue s.cfg.settle = false) {i : Instr} {t : State}
    (ht : exec i s = .next t) : t.claimsKept := by
  cases i with (rw [Machine.exec] at ht)
  | powerOnReset phase => cases ht; exact powerOn s phase
  | pinReset straps => cases ht; exact pinRelease s straps
  | pinResetAsserted => cases ht; exact holdReset s _ _ _
  | reset data => exact h.whenReleased ht (h.writeData _ data)
  | initCompletion => exact h.whenReleased ht h.initDone
  | frameSync => exact h.whenReleased ht h.frameSync
  | sampleReceived slot hopFirst => exact h.whenReleased ht (h.sampleReceived slot hopFirst)
  | syncLossEvent leadFirst => exact h.whenReleased ht (h.monitorExpiry leadFirst)
  | freeHop o => exact h.whenReleased ht (h.freeHop o)
  | syncedHop o => exact h.whenReleased ht (h.syncedHopDue o)
  | measurementCompletes => exact h.whenReleased ht h.measurementDue
  | epoch v => exact h.whenReleased ht (h.putVoice (s.voices[v].keepsOrDrops_epochDue _))
  | grainEnd v => exact h.whenReleased ht (h.setVoice (v := v) (.of_plan rfl rfl))
  | attackComplete v => exact h.whenReleased ht (h.setVoice s.voices[v].keepsOrDrops_attackComplete)
  | fadeEnd v => exact h.whenReleased ht (h.setVoice s.voices[v].keepsOrDrops_fadeEnd)
  | holdLimit v => exact h.whenReleased ht (h.putVoice (s.voices[v].keepsOrDrops_holdLimitDue _))
  | returnToPrimary v => exact h.whenReleased ht (ite (fun hdue => by rw [hreturn v] at hdue; cases hdue) fun _ => h)
  | firming v => exact h.whenReleased ht ((h.setVoice (.inr (s.voices[v].sameClaim_firmDue _ v))).offerSome _)
  | claimRefresh v => exact h.whenReleased ht ((h.setVoice (.inr (s.voices[v].sameClaim_refreshDue _ v))).offerSome _)
  | holdLength => exact h.whenReleased ht h.holdLengthEvent
  | decisionHop => exact h.whenReleased ht h.decisionEvent
  | periodicLead => exact h.whenReleased ht h.periodicLeadDue
  | periodicKey => exact h.whenReleased ht h.periodicKeyDue
  | quietHello => exact h.whenReleased ht h.quietHelloDue
  | claimAgeLimit p v => exact h.whenReleased ht (h.claimAgeLimitDue p v)
  | recordLimit p => exact h.whenReleased ht (h.recordLimitDue p)
  | calibrateLong arg => exact h.whenReleased ht (h.commandWrite _ arg)
  | calibrateShort arg => exact h.whenReleased ht (h.commandWrite _ arg)
  | go arg => exact h.whenReleased ht (h.commandWrite _ arg)
  | standby arg => exact h.whenReleased ht (h.commandWrite _ arg)
  | wake arg => exact h.whenReleased ht (h.commandWrite _ arg)
  | pin arg => exact h.whenReleased ht (h.commandWrite _ arg)
  | unpin arg => exact h.whenReleased ht (h.commandWrite _ arg)
  | clear arg => exact h.whenReleased ht (h.commandWrite _ arg)
  | unknownCode code arg => exact h.whenReleased ht (h.codeWrite code arg)
  | keycfg data => exact h.whenReleased ht (h.writeData _ data)
  | enable data => exact h.whenReleased ht (h.writeData _ data)
  | mute m => exact h.whenReleased ht (h.writeData _ _)
  | attnMask data => exact h.whenReleased ht (h.writeData _ data)
  | attn phase =>
    refine h.whenReleased ht ?_
    cases phase with
    | whole => exact completeAttn (s := s.captureAttn) h
    | capture => exact h
    | complete => exact h.completeAttn
  | context phase =>
    refine h.whenReleased ht ?_
    cases phase with
    | whole => exact completeContext (s := s.captureContext) h
    | capture => exact h
    | complete => exact h.completeContext
  | writeWord addr data => exact h.whenReleased ht (h.writeData addr data)
  | transactionAbandoned lines ended => exact h.whenReleased ht (h.abandon lines ended)
  | startFrame => exact h.whenReleased ht h.startFrame
  | lostArbitration winner => exact h.whenReleased ht (h.withLink _)
  | echoMismatch => exact h.whenReleased ht (h.withLink _)
  | frameSent => exact h.whenReleased ht (h.withLink _)
  | receiveFrame rx => exact h.whenReleased ht (h.receiveFrame rx)
  | stuck => exact h.whenReleased ht h.stuckEntry
  | returnToActive => exact h.whenReleased ht h.stuckReturn

end State.claimsKept

/-! ## The obligation -/

/-- R88: where claims are sound no voice is due to return to its primary, for a hop takes the return as it brings the free
count to SETTLE. -/
theorem State.returnDue_eq_false {s : State} (h : s.claimsOk) (v : VoiceIx) :
    s.voices[v].returnDue s.cfg.settle = false := by
  obtain ⟨-, -, -, hfree⟩ := h.1 v
  rw [Voice.returnDue, decide_eq_false hfree.not_ge, Bool.and_false]

/-- Settles O56: sound claims with R90 make the invariant `ClaimsKept`, every command keeps it, and R90 is a part of it. -/
theorem stepKeepsOwnClaimsApart : Obligations.StepKeepsOwnClaimsApart := by
  intro s t hok hapart ht
  have hkept : s.claimsKept := State.claimsKept_of_claimsOk hok hapart
  rw [step] at ht
  split at ht
  case h_1 =>
    cases ht
    exact hapart
  case h_2 rest _ => exact (State.claimsKept.exec (s := { s with pending := rest }) hkept (State.returnDue_eq_false hok) ht).apart

end Sys2Proof.Machine
end

section
/-! PROOFS. A good frame applied to the sender's record (R115 to R121, R172): the claims after one insertion or removal, a
HELLO by its fresh bit, and the rule of each kind of frame. -/

namespace Sys2Proof.Machine

/-! ## The claims of a record -/

/-- One entry set where the index is within the vector, read index by index: an index past the end leaves every entry. -/
theorem set_or_self_eq_ofFn {α : Type} {n : Nat} (xs : Vector α n) (i : Nat) (a : α) :
    (if h : i < n then xs.set i a else xs) = Vector.ofFn fun v : Fin n => if v.val = i then a else xs[v] := by
  ext j hj
  rw [Vector.getElem_ofFn]
  split
  case isTrue hi =>
    rw [Vector.getElem_set]
    exact if_congr eq_comm rfl rfl
  case isFalse hi => exact (if_neg fun hji : j = i => hi (hji ▸ hj)).symm

namespace PeerRecord

variable (r : PeerRecord)

/-- R118, R172: an insertion replaces the claim at the index and keeps the others, and inserts nothing at an index of 8 to 15. -/
theorem insertClaim_eq (voice : Nat) (c : PeerClaim) :
    r.insertClaim voice c
      = { r with claims := Vector.ofFn fun v : VoiceIx => if v.val = voice then some c else r.claims[v] } := by
  rw [← set_or_self_eq_ofFn r.claims voice (some c), insertClaim]
  split <;> rfl

/-- R119: a removal takes the claim at the index away and keeps the others. -/
theorem removeClaim_eq (voice : Nat) :
    r.removeClaim voice
      = { r with claims := Vector.ofFn fun v : VoiceIx => if v.val = voice then none else r.claims[v] } := by
  rw [← set_or_self_eq_ofFn r.claims voice none, removeClaim]
  split <;> rfl

/-! ## The rule of each kind -/

variable {f : LinkFrame}

theorem apply_of_drop (h : f.kind = 0) : r.apply f = r.removeClaim f.voice := by simp only [apply, h]

theorem apply_of_claim (h : f.kind = 1) :
    r.apply f = r.insertClaim f.voice { note := f.note, firm := f.firm, age := 0 } := by simp only [apply, h]

theorem apply_of_lead (h : f.kind = 2) : r.apply f = { r with lead := some f.leadPart } := by simp only [apply, h]

theorem apply_of_key (h : f.kind = 3) : r.apply f = { r with keyReport := some f.keyPart } := by simp only [apply, h]

theorem apply_of_hello (h : f.kind = 4) : r.apply f = r.applyHello f.fresh f.restingBit := by simp only [apply, h]

theorem applyHello_of_not_fresh (resting : Bool) : r.applyHello false resting = { r with resting := resting } := rfl

/-- R121: a fresh HELLO also empties the lead part and the claims. -/
theorem applyHello_of_fresh (resting : Bool) :
    r.applyHello true resting = { r with resting := resting, lead := none, claims := Vector.replicate 8 none } := rfl

end PeerRecord

/-! ## The obligation -/

/-- Settles O45, kind by kind: the rule of the kind, then what its operation leaves of the record, the fields of the frame
being the bytes of R172. -/
theorem goodFrameUpdatesRecord : Obligations.GoodFrameUpdatesRecord := by
  intro f r
  refine ⟨rfl, fun hdrop => ?_, fun hclaim => ?_, fun hlead => ?_, fun hkey => ?_, fun hhello hknown => ?_,
    fun hhello hfresh => ?_⟩
  · exact (r.apply_of_drop hdrop).trans (r.removeClaim_eq f.voice)
  · exact (r.apply_of_claim hclaim).trans (r.insertClaim_eq f.voice _)
  · exact r.apply_of_lead hlead
  · exact r.apply_of_key hkey
  · rw [r.apply_of_hello hhello, LinkFrame.fresh, hknown]
    exact r.applyHello_of_not_fresh f.restingBit
  · rw [r.apply_of_hello hhello, LinkFrame.fresh, hfresh]
    exact r.applyHello_of_fresh f.restingBit

end Sys2Proof.Machine
end

section
/-! PROOFS. What the operations on one voice may change of it (R52, R72 to R78, R129 to R147): its words but the enable bit and
the gain stand, its claim stays in step with its engine and its flags, and its grains, envelope and counts stay in range. -/

namespace Sys2Proof.Machine

/-! ## The relation -/

/-- R72, R76, R135: the claim of a voice is sound, and outside LIVE the voice does not sound. -/
def Voice.claimFits (part : PartState) (settle : Nat) (vo : Voice) : Prop :=
  vo.claimOk settle ∧ (part ≠ .live → vo.eng.state.sounding = false)

/-- What any operation on a voice but a write of its setup words keeps of its words, its engine's ranges and its counts. -/
structure Voice.KeepsBounds (cfg : Setup) (a b : Voice) : Prop where
  words : b.cfg = { a.cfg with enabled := b.cfg.enabled, gain := b.cfg.gain }
  gain : a.cfg.gain ≤ 152 → b.cfg.gain ≤ 152
  ranges : a.eng.rangesOk → b.eng.rangesOk
  counts : cfg.settle ≤ 32 → cfg.refresh ≤ 64 → a.countsOk → b.countsOk

namespace Voice.KeepsBounds

variable {cfg : Setup} {a b c : Voice}

protected theorem rfl : a.KeepsBounds cfg a := ⟨rfl, id, id, fun _ _ => id⟩

protected theorem trans (hab : a.KeepsBounds cfg b) (hbc : b.KeepsBounds cfg c) : a.KeepsBounds cfg c where
  words := by rw [hbc.words, hab.words]
  gain := hbc.gain ∘ hab.gain
  ranges := hbc.ranges ∘ hab.ranges
  counts hs hr ha := hbc.counts hs hr (hab.counts hs hr ha)

/-- The range of a voice's words, of which an operation changes the gain at most. -/
theorem inRange (h : a.KeepsBounds cfg b) (ha : a.cfg.inRange) : b.cfg.inRange := by
  obtain ⟨hlow, hlow', hspan, hspan', hattack, hattack', hrelease, hrelease', hgain⟩ := ha
  rw [h.words]
  exact ⟨hlow, hlow', hspan, hspan', hattack, hattack', hrelease, hrelease', h.gain hgain⟩

theorem of_engine {e : Engine} (hranges : a.eng.rangesOk → e.rangesOk) (hstarve : a.eng.starve ≤ 255 → e.starve ≤ 255)
    (hcut : a.eng.cut ≤ 255 → e.cut ≤ 255) : a.KeepsBounds cfg { a with eng := e } where
  words := rfl
  gain := id
  ranges := hranges
  counts _ _ ha := by
    obtain ⟨hsettle, hrefresh, hs, hc⟩ := ha
    exact ⟨hsettle, hrefresh, hstarve hs, hcut hc⟩

/-- A change of the planning part alone, with a claim in range. -/
theorem of_plan {p : VoicePlan}
    (hcounts : cfg.settle ≤ 32 → cfg.refresh ≤ 64 → a.countsOk → Voice.countsOk { a with plan := p }) :
    a.KeepsBounds cfg { a with plan := p } := ⟨rfl, id, id, hcounts⟩

/-- A claim with its settle count in range, and a refresh count in range. -/
theorem withClaim {c' : LocalClaim} {n : Nat} (hn : cfg.refresh ≤ 64 → a.plan.refreshCount ≤ 63 → n ≤ 63)
    (hsettle : cfg.settle ≤ 32 → a.countsOk → c'.settle ≤ 32 ∧ (c'.firm = false → c'.settle ≤ 31)) :
    a.KeepsBounds cfg { a with plan := { a.plan with claim := some c', refreshCount := n } } := by
  refine of_plan fun hs hr ha => ⟨fun d hd => ?_, hn hr ha.2.1, ha.2.2⟩
  rw [← Option.some.inj hd]
  exact hsettle hs ha

end Voice.KeepsBounds

/-- What any operation on a voice but a write of its setup words keeps, with the part state and the settings it is taken in. -/
structure Voice.Evolves (part : PartState) (cfg : Setup) (a b : Voice) : Prop extends a.KeepsBounds cfg b where
  claim : 2 ≤ cfg.settle → a.claimFits part cfg.settle → b.claimFits part cfg.settle

namespace Voice.Evolves

variable {part : PartState} {cfg : Setup} {a b c : Voice}

protected theorem rfl : a.Evolves part cfg a := ⟨.rfl, fun _ => id⟩

protected theorem trans (hab : a.Evolves part cfg b) (hbc : b.Evolves part cfg c) : a.Evolves part cfg c :=
  ⟨hab.toKeepsBounds.trans hbc.toKeepsBounds, fun hs ha => hbc.claim hs (hab.claim hs ha)⟩

/-- A change of the engine alone that leaves the voice sounding, or not sounding. -/
theorem of_engine {e : Engine} (hstate : e.state.sounding = a.eng.state.sounding) (hranges : a.eng.rangesOk → e.rangesOk)
    (hstarve : a.eng.starve ≤ 255 → e.starve ≤ 255) (hcut : a.eng.cut ≤ 255 → e.cut ≤ 255) :
    a.Evolves part cfg { a with eng := e } := by
  refine ⟨.of_engine hranges hstarve hcut, fun _ ha => ?_⟩
  obtain ⟨⟨hsounds, hnote, hflags, hfree⟩, hlive⟩ := ha
  exact ⟨⟨hsounds.trans hstate.symm, hnote, hflags, hfree⟩, fun hpart => hstate.trans (hlive hpart)⟩

/-- R76: a claim given up, with the voice in a state that does not sound. -/
theorem of_drop {e : Engine} (hstate : e.state.sounding = false) (hranges : a.eng.rangesOk → e.rangesOk)
    (hstarve : e.starve = a.eng.starve) (hcut : e.cut = a.eng.cut) :
    a.Evolves part cfg { a.withoutClaim with eng := e } where
  words := rfl
  gain := id
  claim hs _ := ⟨⟨hstate.symm, rfl, fun _ => ⟨rfl, rfl, rfl⟩, by show 0 < _; omega⟩, fun _ => hstate⟩
  ranges := hranges
  counts _ _ ha := by
    obtain ⟨-, hrefresh, hs, hc⟩ := ha
    exact ⟨fun _ hc' => absurd hc' (Option.not_mem_none _), hrefresh, hstarve ▸ hs, hcut ▸ hc⟩

/-- R129, R149: a change of the enable bit and the gain. -/
theorem of_words {bit : Bool} {g : Nat} (hg : a.cfg.gain ≤ 152 → g ≤ 152) :
    a.Evolves part cfg { a with cfg := { a.cfg with enabled := bit, gain := g } } :=
  ⟨⟨rfl, hg, id, fun _ _ => id⟩, fun _ => id⟩

/-- A step that either does something or nothing. -/
theorem ite {p : Prop} [Decidable p] (hb : p → a.Evolves part cfg b) (hc : ¬p → a.Evolves part cfg c) :
    a.Evolves part cfg (if p then b else c) := by
  split
  case isTrue hp => exact hb hp
  case isFalse hp => exact hc hp

theorem toFade : a.Evolves part cfg a.toFade := of_drop rfl id rfl rfl

/-! ## Grains and epochs -/

theorem bump_le (n : Nat) : bump n ≤ 255 := Nat.min_le_left _ _

theorem addGrain (g : Grain) : a.Evolves part cfg { a with eng := a.eng.addGrain g } := by
  rw [Engine.addGrain]
  split
  case isTrue hlt => exact of_engine rfl (fun h => ⟨by simpa using hlt, h.2⟩) id id
  case isFalse => exact of_engine rfl (fun h => ⟨by have := h.1; simp; omega, h.2⟩) id fun _ => bump_le _

theorem starved : a.Evolves part cfg a.starved.1 := by
  have counted : a.Evolves part cfg { a with eng := { a.eng with starve := bump a.eng.starve } } :=
    of_engine rfl id (fun _ => bump_le _) id
  rw [Voice.starved]
  split
  · exact counted
  · exact counted
  · exact counted.trans toFade
  · exact .rfl

theorem startGrain (env : RenderEnv) : a.Evolves part cfg (a.startGrain env).1 := by
  rw [Voice.startGrain]
  split
  · exact addGrain _
  · exact starved

theorem epochDue (env : RenderEnv) : a.Evolves part cfg (a.epochDue env).1 := by
  rw [Voice.epochDue]
  split
  · refine .trans ?_ (startGrain env)
    exact of_engine rfl id id id
  · exact .rfl

theorem epochStep (env : RenderEnv) : a.Evolves part cfg (a.epochStep env).1 := by
  rw [Voice.epochStep]
  split
  · refine .trans ?_ (epochDue env)
    exact of_engine rfl id id id
  · exact .rfl

/-! ## Envelope and end tests -/

theorem envelopeStep : a.Evolves part cfg a.envelopeStep := by
  rw [Voice.envelopeStep]
  split
  · exact of_engine rfl (fun h => ⟨h.1, (Nat.sub_le _ _).trans h.2⟩) id id
  · exact .rfl
  · exact .rfl
  · exact of_engine rfl (fun h => ⟨h.1, Nat.min_le_left _ _⟩) id id

theorem advanceGrains : a.Evolves part cfg a.advanceGrains :=
  of_engine rfl (fun h => ⟨(List.length_map _).trans_le h.1, h.2⟩) id id

theorem endGrains : a.Evolves part cfg a.endGrains :=
  of_engine rfl (fun h => ⟨(List.length_filter_le _ _).trans h.1, h.2⟩) id id

theorem attackComplete : a.Evolves part cfg a.attackComplete := by
  rw [Voice.attackComplete]
  split
  case isTrue h => exact of_engine (by rw [h.1]; exact rfl) id id id
  case isFalse => exact .rfl

theorem fadeEnd : a.Evolves part cfg a.fadeEnd := by
  rw [Voice.fadeEnd]
  split
  case isTrue h => exact of_engine (by rw [h.1]; cases a.eng.disablePending <;> exact rfl) id id id
  case isFalse => exact .rfl

theorem holdLimitDue (limit : Nat) : a.Evolves part cfg (a.holdLimitDue limit).1 := by
  rw [Voice.holdLimitDue]
  split
  · exact toFade
  · exact .rfl

theorem holdStep (limit : Nat) (counts : Bool) : a.Evolves part cfg (a.holdStep limit counts).1 := by
  rw [Voice.holdStep]
  split
  · refine .trans ?_ (holdLimitDue limit)
    exact of_engine rfl id id id
  · exact .rfl

/-- R137: the six steps one after another. -/
theorem sampleWork (env : RenderEnv) (counts : Bool) : a.Evolves part cfg (a.sampleWork env counts).voice := by
  rw [Voice.sampleWork]
  split
  · exact .rfl
  · exact .rfl
  · exact (epochStep env).trans <| envelopeStep.trans <| advanceGrains.trans <| endGrains.trans <|
      attackComplete.trans <| fadeEnd.trans <| holdStep env.holdLimit counts

theorem markClip (saturates : Bool) (sample : Int) : a.Evolves part cfg (a.markClip saturates sample) := by
  rw [Voice.markClip]
  split
  · exact of_engine rfl id id id
  · exact .rfl

theorem cleared : a.Evolves part cfg a.cleared := of_engine rfl id (fun _ => Nat.zero_le _) fun _ => Nat.zero_le _

/-! ## Stops and enables -/

/-- R136: a voice stopped at a sync loss. -/
theorem stop : a.Evolves part cfg a.stop.1 := by
  have hstate : a.stop.1.eng.state.sounding = false := by
    simp only [Voice.stop]
    split
    · exact rfl
    · exact rfl
    · cases a.cfg.enabled <;> exact rfl
  have hranges : a.eng.rangesOk → a.stop.1.eng.rangesOk := fun _ => ⟨Nat.zero_le _, Nat.zero_le _⟩
  by_cases hs : a.eng.state.sounding = true
  · have hstop : a.stop.1 = { a.withoutClaim with eng := a.stop.1.eng } := by simp only [Voice.stop, if_pos hs]
    rw [hstop]
    exact of_drop hstate hranges rfl rfl
  · have hstop : a.stop.1 = { a with eng := a.stop.1.eng } := by simp only [Voice.stop, if_neg hs]
    rw [hstop]
    exact of_engine (hstate.trans (Bool.eq_false_of_not_eq_true hs).symm) hranges id id

/-- R129: a voice whose enable bit is written. -/
theorem setEnable (bit : Bool) : a.Evolves part cfg (a.setEnable bit).1 := by
  have hword : a.Evolves part cfg { a with cfg := { a.cfg with enabled := bit } } := of_words id
  rw [Voice.setEnable]
  split
  · exact .rfl
  · split
    case h_1 hs _ => exact hword.trans (of_engine (by rw [hs]; exact rfl) id id id)
    case h_4 hs _ => exact hword.trans (of_engine (by rw [hs]; exact rfl) id id id)
    case h_5 => exact hword.trans (of_engine rfl id id id)
    case h_7 => exact hword.trans (of_drop rfl id rfl rfl)
    all_goals exact hword

/-! ## Free counts, firming and refresh -/

/-- R89: a free count set to 0. -/
theorem clearFreeCount : a.Evolves part cfg { a with plan := { a.plan with freeCount := 0 } } := by
  refine ⟨.of_plan fun _ _ => id, fun hs ha => ?_⟩
  obtain ⟨⟨hsounds, hnote, hflags, -⟩, hlive⟩ := ha
  exact ⟨⟨hsounds, hnote, fun hc => ⟨(hflags hc).1, rfl, (hflags hc).2.2⟩, by show 0 < _; omega⟩, hlive⟩

/-- A claim replaced by another on the same note. -/
theorem withClaim {c c' : LocalClaim} (hc : a.plan.claim = some c) (hnote : c'.note = c.note) {n : Nat}
    (hn : cfg.refresh ≤ 64 → a.plan.refreshCount ≤ 63 → n ≤ 63)
    (hsettle : c.settle ≤ 32 ∧ (c.firm = false → c.settle ≤ 31) → c'.settle ≤ 32 ∧ (c'.firm = false → c'.settle ≤ 31)) :
    a.Evolves part cfg { a with plan := { a.plan with claim := some c', refreshCount := n } } := by
  refine ⟨.withClaim hn fun _ ha => hsettle (ha.1 c hc), fun _ ha => ?_⟩
  obtain ⟨⟨hsounds, hdecided, -, hfree⟩, hlive⟩ := ha
  rw [hc] at hsounds hdecided
  exact ⟨⟨hsounds, by rw [← hdecided]; exact congrArg some hnote, fun h => absurd h (Option.some_ne_none _), hfree⟩, hlive⟩

/-- R75: a soft claim made firm. -/
theorem firmDue (v : VoiceIx) : a.Evolves part cfg (a.firmDue cfg.settle v).1 := by
  rw [Voice.firmDue]
  split
  case h_1 c hc =>
    split
    · exact withClaim (c' := { c with firm := true }) hc rfl (fun _ _ => Nat.zero_le _) fun h => ⟨h.1, fun hf => nomatch hf⟩
    · exact .rfl
  case h_2 => exact .rfl

/-- R77: a claim queued again. -/
theorem refreshDue (v : VoiceIx) : a.Evolves part cfg (a.refreshDue cfg.refresh v).1 := by
  rw [Voice.refreshDue]
  split
  case h_1 c hc =>
    split
    · exact withClaim hc rfl (fun _ _ => Nat.zero_le _) id
    · exact .rfl
  case h_2 => exact .rfl

/-- R88: where claims are sound no voice is due to return to its primary. -/
theorem takePrimary (hdue : a.returnDue cfg.settle = true) : a.Evolves part cfg a.takePrimary where
  words := rfl
  gain := id
  claim _ ha := by
    obtain ⟨⟨-, -, -, hfree⟩, -⟩ := ha
    rw [Voice.returnDue, decide_eq_false hfree.not_ge, Bool.and_false] at hdue
    cases hdue
  ranges := id
  counts _ _ := id

end Voice.Evolves
end Sys2Proof.Machine
end

section
/-! PROOFS. What the planner and the hand-over may change of a voice (R55 to R68, R72 to R78, R80 to R90, R130, R131): between
them the decided note runs ahead of the claim, and after the hand-over the two are in step again. -/

namespace Sys2Proof.Machine

/-! ## The planner -/

/-- R76, R88: the flags of a voice as the planner leaves them: all at 0 with neither claim nor decided note, and the free count
below SETTLE. -/
def Voice.flagsFit (settle : Nat) (vo : Voice) : Prop :=
  (vo.plan.claim = none → vo.plan.decided = none →
    vo.plan.onAlternate = false ∧ vo.plan.freeCount = 0 ∧ vo.plan.doubled = false)
  ∧ vo.plan.freeCount < settle

/-- What the planner leaves of voice `a` for the hand-over. -/
structure Voice.Planned (part : PartState) (voiced : Bool) (settle : Nat) (a b : Voice) : Prop where
  words : b.cfg = a.cfg
  engine : b.eng = { a.eng with rangeClamp := b.eng.rangeClamp }
  claim : b.plan.claim = a.plan.claim
  refresh : b.plan.refreshCount = a.plan.refreshCount
  decides : a.InStep → b.plan.decided.isSome = true → a.contested part voiced = true
  flags : 2 ≤ settle → a.claimOk settle → b.flagsFit settle

theorem Voice.claimOk.inStep {settle : Nat} {vo : Voice} (h : vo.claimOk settle) : vo.InStep := ⟨h.1, h.2.1⟩

theorem Voice.claimOk.flagsFit {settle : Nat} {vo : Voice} (h : vo.claimOk settle) : vo.flagsFit settle := by
  obtain ⟨-, -, hflags, hfree⟩ := h
  exact ⟨fun hc _ => hflags hc, hfree⟩

theorem Voice.Planned.planned {part : PartState} {voiced : Bool} {settle : Nat} {a b : Voice}
    (h : a.Planned part voiced settle b) (ha : a.InStep) : a.planned part voiced b :=
  ⟨h.claim, by rw [h.engine], h.decides ha⟩

/-- The parts of a voice that no contest changes. -/
structure Voice.contestFrame (a b : Voice) : Prop where
  words : b.cfg = a.cfg
  engine : b.eng = a.eng
  claim : b.plan.claim = a.plan.claim
  refresh : b.plan.refreshCount = a.plan.refreshCount

/-- A voice that takes a candidate it has: on the primary or the alternate, its free count below SETTLE. -/
theorem Voice.flagsFit_of_decided {settle : Nat} {vo : Voice} (hd : vo.plan.decided.isSome = true)
    (hfree : vo.plan.freeCount < settle) : vo.flagsFit settle :=
  ⟨fun _ hn => absurd hn (Option.isSome_iff_ne_none.1 hd), hfree⟩

theorem Option.isSome_of_any {α : Type} {o : Option α} {p : α → Bool} (h : o.any p = true) : o.isSome = true := by
  cases o with
  | none => cases h
  | some _ => rfl

namespace Voice

variable {settle : Nat} {pass : Nat → Bool} {vo : Voice}

/-- R86 to R88: what either contest leaves alone. -/
theorem byPolicy_frame (double : Bool) (vo : Voice) : vo.contestFrame (vo.byPolicy double) := by
  rw [byPolicy]
  split <;> exact ⟨rfl, rfl, rfl, rfl⟩

theorem contestPrimary_frame (double p q : Bool) (vo : Voice) : vo.contestFrame (vo.contestPrimary double p q) := by
  rw [contestPrimary]
  split
  · exact ⟨rfl, rfl, rfl, rfl⟩
  · split
    · exact ⟨rfl, rfl, rfl, rfl⟩
    · exact vo.byPolicy_frame double

theorem contestAlternate_frame (settle : Nat) (double p q : Bool) (vo : Voice) :
    vo.contestFrame (vo.contestAlternate settle double p q) := by
  rw [contestAlternate]
  split
  · dsimp only
    split
    · exact ⟨rfl, rfl, rfl, rfl⟩
    · split <;> exact ⟨rfl, rfl, rfl, rfl⟩
  · split
    · exact ⟨rfl, rfl, rfl, rfl⟩
    · exact vo.byPolicy_frame double

/-- R87: both candidates lost. -/
theorem byPolicy_fits (hs : 2 ≤ settle) (hprimary : vo.plan.primary.isSome = true)
    (hflags : vo.plan.claim = none → vo.plan.onAlternate = false ∧ vo.plan.freeCount = 0 ∧ vo.plan.doubled = false)
    (double : Bool) : (vo.byPolicy double).flagsFit settle := by
  rw [byPolicy]
  split
  · exact flagsFit_of_decided hprimary (show 0 < settle by omega)
  · exact ⟨fun hc _ => ⟨rfl, rfl, (hflags hc).2.2⟩, show 0 < settle by omega⟩

/-- R86: the contest of a voice whose on-alternate flag is 0. -/
theorem contestPrimary_fits (hs : 2 ≤ settle) (hprimary : vo.plan.primary.isSome = true)
    (hflags : vo.plan.claim = none → vo.plan.onAlternate = false ∧ vo.plan.freeCount = 0 ∧ vo.plan.doubled = false)
    (double : Bool) :
    (vo.contestPrimary double (vo.plan.primary.any pass) (vo.plan.alternate.any pass)).flagsFit settle := by
  have hzero : 0 < settle := by omega
  rw [contestPrimary]
  split
  · exact flagsFit_of_decided hprimary hzero
  · split
    case isTrue ha => exact flagsFit_of_decided (Option.isSome_of_any ha) hzero
    case isFalse => exact byPolicy_fits hs hprimary hflags double

/-- R88: the contest of a voice that holds a claim on its alternate: the free count stays below SETTLE. -/
theorem contestAlternate_fits (hs : 2 ≤ settle) (hprimary : vo.plan.primary.isSome = true)
    (hclaim : vo.plan.claim.isSome = true) (halternate : vo.plan.onAlternate = true) (double : Bool) :
    (vo.contestAlternate settle double (vo.plan.primary.any pass) (vo.plan.alternate.any pass)).flagsFit settle := by
  have hzero : 0 < settle := by omega
  rw [contestAlternate]
  split
  · dsimp only
    split
    · exact flagsFit_of_decided hprimary hzero
    case isFalse hdue =>
      split
      case isTrue ha =>
        simp only [returnDue, hclaim, halternate, Bool.true_and, decide_eq_true_eq, not_le] at hdue
        exact flagsFit_of_decided (Option.isSome_of_any ha) hdue
      case isFalse => exact flagsFit_of_decided hprimary hzero
  · split
    case isTrue ha => exact flagsFit_of_decided (Option.isSome_of_any ha) hzero
    case isFalse =>
      exact byPolicy_fits hs hprimary (fun hn => absurd hn (Option.isSome_iff_ne_none.1 hclaim)) double

end Voice

/-- R80: what a contest leaves alone. -/
theorem State.contestVoice_frame (s : State) (set : List Sounding) (vo : Voice) : vo.contestFrame (s.contestVoice set vo) := by
  rw [State.contestVoice]
  split
  · split
    · exact vo.contestAlternate_frame _ _ _ _
    · exact vo.contestPrimary_frame _ _ _
  · exact ⟨rfl, rfl, rfl, rfl⟩

/-- R80: the flags that a contest leaves of a voice with a primary candidate. -/
theorem State.contestVoice_fits (s : State) (set : List Sounding) {vo : Voice} (hs : 2 ≤ s.cfg.settle)
    (hprimary : vo.plan.primary.isSome = true) (hok : vo.claimOk s.cfg.settle) :
    (s.contestVoice set vo).flagsFit s.cfg.settle := by
  obtain ⟨-, -, hflags, hfree⟩ := hok
  rw [State.contestVoice]
  split
  · split
    case isTrue h => exact Voice.contestAlternate_fits hs hprimary h.1 h.2 _
    case isFalse => exact Voice.contestPrimary_fits hs hprimary hflags _
  case isFalse hcontested =>
    rw [Voice.contested, Bool.or_eq_true, not_or] at hcontested
    exact ⟨fun _ _ => hflags (Option.not_isSome_iff_eq_none.1 hcontested.1), hfree⟩

/-- R62 to R67: a voice's target, shift and period, and its range-clamp flag. -/
theorem Voice.computeShift_eq (rules : Vector IntervalRule 4) (deviation : Int) (pair : VoicedPair) (voiced : Bool)
    (vo : Voice) : ∃ cents shift period clamp, vo.computeShift rules deviation pair voiced
      = { vo with
          plan := { vo.plan with cents := cents, shift := shift, period := period }
          eng := { vo.eng with rangeClamp := clamp } } := by
  rw [Voice.computeShift]
  split
  · exact ⟨_, _, _, _, rfl⟩
  · dsimp only
    split
    · exact ⟨_, _, _, _, rfl⟩
    · split <;> exact ⟨_, _, _, _, rfl⟩

/-- R82: every voice's contest, against some set. -/
theorem State.contestAll_voice (s : State) (held : Nat) (v : VoiceIx) :
    ∃ set, (s.contestAll held).voices[v] = s.contestVoice set s.voices[v] := by
  obtain ⟨-, hcontest⟩ := s.contestFrom_spec (List.finRange 8) (List.pairwise_lt_finRange 8) (s.soundingSet held) s.voices
  obtain ⟨set, -, hvoice, -⟩ := hcontest v (List.mem_finRange v)
  exact ⟨set, hvoice⟩

/-- R59, R80, R62: a voice with candidates, after its contest and its shift. -/
theorem Voice.Planned.of_contest (s : State) (set : List Sounding) (a : Voice) (key : Key) (held : Nat) (deviation : Int)
    (pair : VoicedPair) : a.Planned s.sc.part s.pt.record.voiced s.cfg.settle
      ((s.contestVoice set (a.withCandidates key held s.cfg.rules)).computeShift s.cfg.rules deviation pair
        s.pt.record.voiced) := by
  obtain ⟨words, engine, claim, refresh⟩ := s.contestVoice_frame set (a.withCandidates key held s.cfg.rules)
  obtain ⟨-, hcontested⟩ := s.contestVoice_outcome set (a.withCandidates key held s.cfg.rules)
  have hfits (hs : 2 ≤ s.cfg.settle) (hok : a.claimOk s.cfg.settle) :=
    s.contestVoice_fits set (vo := a.withCandidates key held s.cfg.rules) hs rfl hok
  obtain ⟨cents, shift, period, clamp, heq⟩ :=
    (s.contestVoice set (a.withCandidates key held s.cfg.rules)).computeShift_eq s.cfg.rules deviation pair s.pt.record.voiced
  rw [heq]
  exact ⟨words, by rw [engine]; rfl, claim, refresh, fun _ => hcontested, hfits⟩

/-- R55, R59, R80, R62: with a held note, candidates, contests and shifts follow one another. -/
theorem State.planVoices_eq_of_some (s : State) {held : Nat} (h : s.cu.held = some held) :
    s.planVoices = { s with
      voices := Vector.ofFn fun v =>
        ((s.mapVoices fun _ vo => vo.withCandidates s.cu.key held s.cfg.rules).contestAll held).voices[v].computeShift
          s.cfg.rules (s.deviation held) s.pt.lastVoiced s.pt.record.voiced } := by
  simp only [State.planVoices, h, State.mapVoices, State.contestAll]

/-- R55, R56: the planner changes the voices alone, each to a planned one. -/
theorem State.planVoices_planned (s : State) : ∃ voices, s.planVoices = { s with voices := voices }
    ∧ ∀ v : VoiceIx, s.voices[v].Planned s.sc.part s.pt.record.voiced s.cfg.settle voices[v] := by
  cases hheld : s.cu.held with
  | none =>
    refine ⟨_, State.planVoices_of_none hheld, fun v => ?_⟩
    rw [Fin.getElem_fin (Vector.ofFn _), Vector.getElem_ofFn]
    refine ⟨rfl, rfl, rfl, rfl, fun hstep hd => ?_, fun _ hok => hok.flagsFit⟩
    have hclaim : s.voices[v].plan.claim.isSome = true := by rw [← Option.isSome_map, hstep.note]; exact hd
    rw [Voice.contested, hclaim, Bool.true_or]
  | some held =>
    refine ⟨_, s.planVoices_eq_of_some hheld, fun v => ?_⟩
    rw [Fin.getElem_fin (Vector.ofFn _), Vector.getElem_ofFn]
    obtain ⟨set, hset⟩ :=
      State.contestAll_voice (s.mapVoices fun _ vo => vo.withCandidates s.cu.key held s.cfg.rules) held v
    rw [State.mapVoices_get] at hset
    rw [hset]
    exact (Voice.Planned.of_contest s set s.voices[v] s.cu.key held (s.deviation held) s.pt.lastVoiced)

end Sys2Proof.Machine
end

section
/-! PROOFS. The hand-over to one voice keeps its ranges and counts, and brings the claim in step with the decided note
(R68, R72 to R77, R130, R131). -/

namespace Sys2Proof.Machine.Voice

/-! ## Ranges and counts -/

namespace KeepsBounds

variable {cfg : Setup} {a : Voice}

theorem toFade : a.KeepsBounds cfg a.toFade := (Evolves.toFade (part := .init)).toKeepsBounds

/-- R131: an entry to ONSET. -/
theorem enterOnset (env : RenderEnv) : a.KeepsBounds cfg (a.enterOnset env) := by
  refine .trans ?_ (Evolves.startGrain (part := .init) env).toKeepsBounds
  refine of_engine (fun h => ⟨h.1, ?_⟩) id id
  dsimp only
  split
  · exact h.2
  · exact Nat.zero_le _

theorem loseLead (limit : Nat) : a.KeepsBounds cfg (a.loseLead limit) := by
  rw [Voice.loseLead]
  split
  · exact of_engine id id id
  · exact toFade

theorem gainCommand (env : RenderEnv) (raise voiced : Bool) : a.KeepsBounds cfg (a.gainCommand env raise voiced) := by
  unfold Voice.gainCommand
  split
  case h_2 | h_4 => exact enterOnset env
  case h_8 => exact of_engine id id id
  case h_9 | h_10 => exact loseLead _
  case h_12 => exact toFade
  all_goals exact .rfl

end KeepsBounds

/-! ## A claim that stands -/

/-- R75: the settle count of a claim after a hop: that of a soft claim in ONSET and SOUND counts. -/
def settleAfter (vo : Voice) (c : LocalClaim) : Nat :=
  if c.firm = false ∧ (vo.eng.state = .onset ∨ vo.eng.state = .sound) then c.settle + 1 else c.settle

theorem settleStep_of_claim {vo : Voice} {c : LocalClaim} (hc : vo.plan.claim = some c) :
    vo.settleStep = { vo with plan := { vo.plan with claim := some { c with settle := vo.settleAfter c } } } := by
  simp only [settleStep, settleAfter, hc]
  split
  · rfl
  · rw [← hc]

/-- R75: a soft claim that reaches SETTLE becomes firm, with a firm CLAIM. -/
theorem claimStands_of_settled (cfg : Setup) (v : VoiceIx) {vo : Voice} {c : LocalClaim} (hc : vo.plan.claim = some c)
    (hsoft : c.firm = false) (hsettled : cfg.settle ≤ vo.settleAfter c) :
    vo.claimStands cfg v =
      ({ vo with
          plan := { vo.plan with
            claim := some { note := c.note, firm := true, settle := vo.settleAfter c }, refreshCount := 0 } },
        some (.claim v true vo.cfg.rule c.note)) := by
  have hfirm : vo.settleStep.firmDue cfg.settle v =
      ({ vo with
          plan := { vo.plan with
            claim := some { note := c.note, firm := true, settle := vo.settleAfter c }, refreshCount := 0 } },
        some (.claim v true vo.cfg.rule c.note)) := by
    rw [settleStep_of_claim hc]
    exact if_pos ⟨hsoft, hsettled⟩
  rw [claimStands, hfirm]

/-- R75, R77: a firm claim, or a soft one below SETTLE, is refreshed at REFRESH and counts towards it before. -/
theorem claimStands_of_unsettled (cfg : Setup) (v : VoiceIx) {vo : Voice} {c : LocalClaim} (hc : vo.plan.claim = some c)
    (hunsettled : c.firm = true ∨ vo.settleAfter c < cfg.settle) :
    vo.claimStands cfg v =
      ({ vo with
          plan := { vo.plan with
            claim := some { c with settle := vo.settleAfter c }
            refreshCount := if cfg.refresh ≤ vo.plan.refreshCount + 1 then 0 else vo.plan.refreshCount + 1 } },
        if cfg.refresh ≤ vo.plan.refreshCount + 1 then some (.claim v c.firm vo.cfg.rule c.note) else none) := by
  have hfirm : vo.settleStep.firmDue cfg.settle v = (vo.settleStep, none) := by
    rw [settleStep_of_claim hc]
    refine if_neg fun h => ?_
    obtain ⟨hsoft, hsettled⟩ := h
    rcases hunsettled with hf | hlt
    · exact absurd (hf.symm.trans hsoft) Bool.noConfusion
    · exact absurd hsettled hlt.not_ge
  rw [claimStands, hfirm]
  dsimp only
  rw [settleStep_of_claim hc, refreshDue]
  dsimp only
  split <;> rfl

/-- R75: a claim is soft and has reached SETTLE, or it is firm or still below. -/
theorem settles_or_not (settle : Nat) (vo : Voice) (c : LocalClaim) :
    (c.firm = false ∧ settle ≤ vo.settleAfter c) ∨ (c.firm = true ∨ vo.settleAfter c < settle) := by
  cases c.firm with
  | true => exact .inr (.inl rfl)
  | false => exact (le_or_gt settle (vo.settleAfter c)).imp (⟨rfl, ·⟩) .inr

namespace KeepsBounds

variable {cfg : Setup} {a : Voice}

/-- R75, R77: the settle count of a soft claim stays below SETTLE and the refresh count below REFRESH. -/
theorem claimStands (v : VoiceIx) {c : LocalClaim} (hc : a.plan.claim = some c) :
    a.KeepsBounds cfg (a.claimStands cfg v).1 := by
  have hnext : c.settle ≤ a.settleAfter c ∧ a.settleAfter c ≤ c.settle + 1 ∧ (c.firm = true → a.settleAfter c = c.settle) := by
    unfold settleAfter
    split
    case isTrue h => exact ⟨Nat.le_succ _, le_rfl, fun hf => absurd (hf.symm.trans h.1) Bool.noConfusion⟩
    case isFalse => exact ⟨le_rfl, Nat.le_succ _, fun _ => rfl⟩
  obtain ⟨-, hstep, hstands⟩ := hnext
  rcases settles_or_not cfg.settle a c with hdue | hunsettled
  · rw [claimStands_of_settled cfg v hc hdue.1 hdue.2]
    refine withClaim (fun _ _ => Nat.zero_le _) fun _ ha => ⟨?_, fun hf => nomatch hf⟩
    have := (ha.1 c hc).2 hdue.1
    dsimp only
    omega
  · rw [claimStands_of_unsettled cfg v hc hunsettled]
    refine withClaim (fun hr _ => ?_) fun hs ha => ⟨?_, fun hf => ?_⟩
    · split
      · exact Nat.zero_le _
      · omega
    · have := ha.1 c hc
      dsimp only
      rcases hunsettled with hf | hlt
      · have := hstands hf
        omega
      · omega
    · dsimp only at hf ⊢
      rcases hunsettled with hf' | hlt
      · exact absurd (hf'.symm.trans hf) Bool.noConfusion
      · omega

/-- R72 to R77: the claim that follows the gain command. -/
theorem claimWork (v : VoiceIx) (before : Voice) : a.KeepsBounds cfg (Voice.claimWork cfg v before a).1 := by
  have fresh (n : Nat) : a.KeepsBounds cfg (a.withClaim { note := n, firm := false, settle := 0 }) :=
    withClaim (fun _ _ => Nat.zero_le _) fun _ _ => ⟨Nat.zero_le _, fun _ => Nat.zero_le _⟩
  rw [Voice.claimWork]
  split
  · split
    · split
      case h_1 c n hc _ =>
        split
        · exact claimStands v hc
        · exact fresh n
      case h_2 => exact .rfl
    · exact .rfl
  · split
    · split
      · exact fresh _
      · exact .rfl
    · exact .rfl

theorem handOver (env : RenderEnv) (voiced : Bool) (v : VoiceIx) : a.KeepsBounds cfg (a.handOver env cfg voiced v).1 := by
  rw [Voice.handOver]
  refine .trans ?_ (claimWork v _)
  refine .trans ?_ (gainCommand env _ voiced)
  exact of_engine id id id

/-- R55 to R67: the planner's work keeps ranges and counts. -/
theorem of_planned {part : PartState} {voiced : Bool} {b : Voice} (h : a.Planned part voiced cfg.settle b) :
    a.KeepsBounds cfg b where
  words := by rw [h.words]
  gain := by rw [h.words]; exact id
  ranges := by rw [h.engine]; exact id
  counts _ _ ha := by
    obtain ⟨hclaim, hrefresh, hstarve, hcut⟩ := ha
    exact ⟨by rw [h.claim]; exact hclaim, by rw [h.refresh]; exact hrefresh, by rw [h.engine]; exact hstarve,
      by rw [h.engine]; exact hcut⟩

end KeepsBounds

/-! ## Flags -/

/-- R76: what a gain command leaves of the planning part: all of it, or all but a claim given up. -/
theorem gainCommand_plan (env : RenderEnv) (raise voiced : Bool) (vo : Voice) :
    (vo.gainCommand env raise voiced).plan = vo.plan ∨ (vo.gainCommand env raise voiced) = vo.toFade := by
  unfold gainCommand
  split
  case h_2 | h_4 => exact .inl (vo.enterOnset_frame env).1
  case h_9 | h_10 => exact (vo.loseLead_cases _).imp_left And.left
  case h_12 => exact .inr rfl
  all_goals exact .inl rfl

/-- R73 to R77: the claim work sets the claim and the refresh count alone. -/
theorem claimWork_plan (cfg : Setup) (v : VoiceIx) (before after : Voice) :
    ∃ claim n, (claimWork cfg v before after).1.plan = { after.plan with claim := claim, refreshCount := n } := by
  rw [claimWork]
  split
  · split
    · split
      case h_1 c n hc _ =>
        split
        · rcases settles_or_not cfg.settle after c with hdue | hunsettled
          · exact ⟨_, _, by rw [claimStands_of_settled cfg v hc hdue.1 hdue.2]⟩
          · exact ⟨_, _, by rw [claimStands_of_unsettled cfg v hc hunsettled]⟩
        · exact ⟨_, _, rfl⟩
      case h_2 => exact ⟨_, _, rfl⟩
    · exact ⟨_, _, rfl⟩
  · split
    · split <;> exact ⟨_, _, rfl⟩
    · exact ⟨_, _, rfl⟩

/-- R68, R72 to R77: a planned voice handed over is sound again. -/
theorem Evolves.handOver {part : PartState} {voiced : Bool} {cfg : Setup} (env : RenderEnv) (v : VoiceIx) {a b : Voice}
    (hb : a.Planned part voiced cfg.settle b) : a.Evolves part cfg (b.handOver env cfg voiced v).1 := by
  refine ⟨(KeepsBounds.of_planned hb).trans (.handOver env voiced v), fun hs ha => ?_⟩
  obtain ⟨hok, hlive⟩ := ha
  obtain ⟨hflags, hfree⟩ := hb.flags hs hok
  have hspec := Voice.handOver_spec env cfg v hok.inStep (hb.planned hok.inStep)
  have hstep : (b.handOver env cfg voiced v).1.InStep := hspec.elim Voice.silent.inStep And.left
  have hsilent (hpart : part ≠ .live) : (b.handOver env cfg voiced v).1.eng.state.sounding = false := by
    rcases hspec with ⟨-, -, hsilent⟩ | ⟨-, -, -, hcontested⟩
    · exact hsilent
    · exact absurd (Voice.contested_without_claim (hok.1.trans (hlive hpart)) hcontested).1 hpart
  suffices hfits : ((b.handOver env cfg voiced v).1.plan.claim = none →
      (b.handOver env cfg voiced v).1.plan.onAlternate = false ∧ (b.handOver env cfg voiced v).1.plan.freeCount = 0
        ∧ (b.handOver env cfg voiced v).1.plan.doubled = false)
      ∧ (b.handOver env cfg voiced v).1.plan.freeCount < cfg.settle from
    ⟨⟨hstep.sounds, hstep.note, hfits.1, hfits.2⟩, hsilent⟩
  rw [Voice.handOver] at hstep ⊢
  set loaded : Voice := { b with eng := { b.eng with reload := b.plan.period } }
  set after := loaded.gainCommand env b.plan.decided.isSome voiced with hafter
  by_cases hfade : after = loaded.toFade
  · rw [hfade, claimWork_of_not_sounding cfg v rfl]
    exact ⟨fun _ => ⟨rfl, rfl, rfl⟩, show 0 < cfg.settle by omega⟩
  · have hplan : after.plan = b.plan := (gainCommand_plan env _ voiced loaded).resolve_right hfade
    obtain ⟨claim, n, hwork⟩ := claimWork_plan cfg v loaded after
    rw [hplan] at hwork
    refine ⟨fun hnone => ?_, by rw [hwork]; exact hfree⟩
    have hdecided : b.plan.decided = none := by
      have hnote := hstep.note
      rw [hnone, hwork] at hnote
      exact hnote.symm
    have hclaim : b.plan.claim = none := by
      refine Option.not_isSome_iff_eq_none.1 fun hsome => ?_
      have hsounds : loaded.eng.state.sounding = true := by
        show b.eng.state.sounding = true
        rw [hb.engine, ← hok.1, ← hb.claim, hsome]
      rcases gainCommand_of_sounding env b.plan.decided.isSome voiced hsounds with ⟨hraise, -, -⟩ | hfade'
      · rw [hdecided] at hraise
        cases hraise
      · exact hfade hfade'
    rw [hwork]
    exact hflags hclaim hdecided

end Sys2Proof.Machine.Voice
end

section
/-! PROOFS. The transmit queue (R104 to R107): the class of an entry, what an offer does to the queue by the queue's state, and
what every operation on the link controller keeps of the queue and of its counts. -/

namespace Sys2Proof.Machine

/-! ## Classes -/

/-- R104: the class of an entry as a number: that of its voice, or one for each of LEAD, KEY and HELLO. -/
def Entry.cls : Entry → Nat
  | .drop v => v.val
  | .claim v _ _ _ => v.val
  | .lead => 8
  | .key => 9
  | .hello _ => 10

theorem Entry.sameClass_iff (a b : Entry) : a.sameClass b = true ↔ a.cls = b.cls := by
  cases a <;> cases b <;> simp [sameClass, voice?, cls, Fin.ext_iff] <;> omega

theorem Entry.sameClass_eq_false_iff (a b : Entry) : a.sameClass b = false ↔ a.cls ≠ b.cls := by
  rw [← Bool.not_eq_true, sameClass_iff]

/-- R105: an entry that coalesces with an offer of its class stays of that class. -/
theorem Entry.cls_coalesce {old e : Entry} (h : old.sameClass e = true) : (old.coalesce e).cls = old.cls := by
  rw [sameClass_iff] at h
  unfold coalesce
  split
  · rfl
  · exact h.symm

theorem Entry.cls_keepStanding (standing e : Entry) : (standing.keepStanding e).cls = standing.cls := by
  unfold keepStanding
  split <;> rfl

/-- R104: no two entries of a class, as a list of distinct classes. -/
theorem pairwise_sameClass_iff (q : List Entry) :
    q.Pairwise (fun a b => a.sameClass b = false) ↔ (q.map Entry.cls).Nodup := by
  simp only [List.Nodup, List.pairwise_map, Entry.sameClass_eq_false_iff]

/-! ## The lowest-ranked kind -/

theorem foldl_max_le_iff (q : List Entry) (m r : Nat) :
    q.foldl (fun r e => max r e.rank) m ≤ r ↔ m ≤ r ∧ ∀ e ∈ q, e.rank ≤ r := by
  induction q generalizing m with
  | nil => simp
  | cons e q ih => simp [ih, and_assoc]

theorem lowestRank_le_iff (q : List Entry) (r : Nat) : lowestRank q ≤ r ↔ ∀ e ∈ q, e.rank ≤ r := by
  simp [lowestRank, foldl_max_le_iff]

/-- R106: the lowest-ranked kind of a queue split at an entry of that kind. -/
theorem lowestRank_of_split {older newer : List Entry} {x : Entry} (hold : ∀ e ∈ older, e.rank ≤ x.rank)
    (hnew : ∀ e ∈ newer, e.rank < x.rank) : lowestRank (older ++ x :: newer) = x.rank := by
  refine le_antisymm ((lowestRank_le_iff _ _).2 fun e he => ?_) ((lowestRank_le_iff _ _).1 le_rfl x (by simp))
  rcases List.mem_append.1 he with he | he
  · exact hold e he
  · rcases List.mem_cons.1 he with rfl | he
    · exact le_rfl
    · exact (hnew e he).le

/-- R107: the newest entry of a rank is the one after which none of that rank stands. -/
theorem newestOfRank_of_split {older newer : List Entry} {x : Entry} (hnew : ∀ e ∈ newer, e.rank < x.rank) :
    newestOfRank (older ++ x :: newer) x.rank = older.length := by
  have hfind : (older ++ x :: newer).reverse.findIdx (fun e => e.rank == x.rank) = newer.length := by
    rw [List.reverse_append, List.reverse_cons, List.append_assoc, List.findIdx_append, if_neg]
    · simp [List.findIdx_cons]
    · rw [List.findIdx_eq_length_of_false, List.length_reverse]
      · exact lt_irrefl _
      · intro e he
        simpa using (hnew e (List.mem_reverse.1 he)).ne
  rw [newestOfRank, hfind, List.length_append, List.length_cons]
  omega

theorem newestOfRank_lt {q : List Entry} (r : Nat) (h : q ≠ []) : newestOfRank q r < q.length := by
  have := List.length_pos_iff.2 h
  rw [newestOfRank]
  omega

/-! ## Offers -/

namespace LinkController

/-- R105: an offer of the class of a queued entry takes that entry's place. -/
theorem offer_of_same {l : LinkController} {e old : Entry} {i : Nat} (ht : l.state.takesOffers = true)
    (hi : l.queue[i]? = some old) (hsame : old.sameClass e = true)
    (hfirst : ∀ j other, j < i → l.queue[j]? = some other → other.sameClass e = false) :
    l.offer e = { l with queue := l.queue.set i (old.coalesce e), quietCount := 0 } := by
  obtain ⟨hlt, hget⟩ := List.getElem?_eq_some_iff.1 hi
  have hfind : l.queue.findIdx? (·.sameClass e) = some i := by
    rw [List.findIdx?_eq_some_iff_getElem]
    refine ⟨hlt, by rw [hget]; exact hsame, fun j hj => ?_⟩
    rw [hfirst j _ hj (List.getElem?_eq_getElem (hj.trans hlt))]
    exact Bool.false_ne_true
  rw [offer, if_pos ht, hfind]
  simp [List.modify_eq_set_getElem?, hi]

theorem findIdx?_eq_none_of_new {q : List Entry} {e : Entry} (h : ∀ old ∈ q, old.sameClass e = false) :
    q.findIdx? (·.sameClass e) = none := List.findIdx?_eq_none_iff.2 h

/-- R104: an offer of a new class that finds room goes to the newest place. -/
theorem offer_of_room {l : LinkController} {e : Entry} (ht : l.state.takesOffers = true)
    (hnew : ∀ old ∈ l.queue, old.sameClass e = false) (hroom : l.queue.length < 8) :
    l.offer e = { l with queue := l.queue ++ [e], quietCount := 0 } := by
  rw [offer, if_pos ht, findIdx?_eq_none_of_new hnew]
  exact if_pos hroom

/-- R107: an offer of a new class that finds no room is discarded and counted when nothing ranks below it. -/
theorem offer_of_lowest {l : LinkController} {e : Entry} (ht : l.state.takesOffers = true)
    (hnew : ∀ old ∈ l.queue, old.sameClass e = false) (hfull : 8 ≤ l.queue.length)
    (hlow : ∀ old ∈ l.queue, old.rank ≤ e.rank) : l.offer e = { l with queueDrops := bump l.queueDrops } := by
  have hrank : ¬e.rank < lowestRank l.queue := ((lowestRank_le_iff _ _).2 hlow).not_gt
  rw [offer, if_pos ht, findIdx?_eq_none_of_new hnew]
  simp only [hfull.not_gt, overflowAccepts, overflow, hrank, decide_false, if_false, Bool.false_eq_true]

/-- R107: an entry that outranks the lowest kind of a full queue pushes out the newest entry of that kind. -/
theorem overflow_of_split {l : LinkController} {e x : Entry} {older newer : List Entry} (place : Nat)
    (hq : l.queue = older ++ x :: newer) (hrank : e.rank < x.rank) (hold : ∀ old ∈ older, old.rank ≤ x.rank)
    (hnew : ∀ old ∈ newer, old.rank < x.rank) :
    l.overflow e place = { l with
      queue := (older ++ newer).insertIdx (if older.length < place then place - 1 else place) e
      slot := l.slot.map (·.afterDiscard older.length), queueDrops := bump l.queueDrops } := by
  have hlow : lowestRank l.queue = x.rank := by rw [hq]; exact lowestRank_of_split hold hnew
  have hi : newestOfRank l.queue x.rank = older.length := by rw [hq]; exact newestOfRank_of_split hnew
  have herase : l.queue.eraseIdx older.length = older ++ newer := by
    rw [hq, List.eraseIdx_append_of_length_le le_rfl, Nat.sub_self]
    rfl
  simp only [overflow, hlow, hi, herase, if_pos hrank]

theorem offer_of_overflow {l : LinkController} {e x : Entry} {older newer : List Entry} (ht : l.state.takesOffers = true)
    (hclass : ∀ old ∈ l.queue, old.sameClass e = false) (hfull : l.queue.length = 8)
    (hq : l.queue = older ++ x :: newer) (hrank : e.rank < x.rank) (hold : ∀ old ∈ older, old.rank ≤ x.rank)
    (hnew : ∀ old ∈ newer, old.rank < x.rank) :
    l.offer e = { l with
      queue := older ++ newer ++ [e], slot := l.slot.map (·.afterDiscard older.length)
      queueDrops := bump l.queueDrops, quietCount := 0 } := by
  have hlow : lowestRank l.queue = x.rank := by rw [hq]; exact lowestRank_of_split hold hnew
  have hlen : (older ++ newer).length = 7 := by
    rw [hq] at hfull
    simp only [List.length_append, List.length_cons] at hfull ⊢
    omega
  rw [offer, if_pos ht, findIdx?_eq_none_of_new hclass]
  simp only [hfull, lt_irrefl, if_false, overflowAccepts, hlow, hrank, decide_true, if_true,
    overflow_of_split 8 hq hrank hold hnew]
  rw [if_pos (by rw [List.length_append] at hlen; omega), show 8 - 1 = (older ++ newer).length from hlen.symm,
    List.insertIdx_length_self]

end LinkController

/-! ## What an operation on the link controller keeps -/

/-- R104, R101, R103: the queue is sound: at most 8 entries, no two of one class, none where no offer is taken; and a frame is
being sent only in ACTIVE. -/
def LinkController.queueSound (l : LinkController) : Prop :=
  l.queue.length ≤ 8 ∧ l.queue.Pairwise (fun a b => a.sameClass b = false)
    ∧ (l.state.takesOffers = false → l.queue = []) ∧ (l.slot ≠ none → l.state = .active)

/-- What every operation on the link controller keeps, with REFRESH as it stands. -/
structure LinkController.Moves (refresh : Nat) (a b : LinkController) : Prop where
  queue : a.queueSound → b.queueSound
  counts : refresh ≤ 64 → a.countsOk → b.countsOk

namespace LinkController.Moves

variable {refresh : Nat} {a b c : LinkController}

protected theorem rfl : a.Moves refresh a := ⟨id, fun _ => id⟩

protected theorem trans (hab : a.Moves refresh b) (hbc : b.Moves refresh c) : a.Moves refresh c :=
  ⟨hbc.queue ∘ hab.queue, fun hr ha => hbc.counts hr (hab.counts hr ha)⟩

/-- A change of neither the queue, the slot nor the link state. -/
theorem of_counts (hqueue : b.queue = a.queue) (hslot : b.slot = a.slot) (hstate : b.state = a.state)
    (hcounts : refresh ≤ 64 → a.countsOk → b.countsOk) : a.Moves refresh b :=
  ⟨fun h => by rw [queueSound, hqueue, hslot, hstate]; exact h, hcounts⟩

/-- A queue that keeps its classes but for one entry more or less, in a state that takes offers. -/
theorem of_queue {q : List Entry} {slot : Option TxSlot} {quiet drops : Nat} (hlen : a.queue.length ≤ 8 → q.length ≤ 8)
    (hclasses : (a.queue.map Entry.cls).Nodup → (q.map Entry.cls).Nodup) (htakes : a.state.takesOffers = true)
    (hslot : slot ≠ none → a.slot ≠ none) (hquiet : quiet ≤ a.quietCount) (hdrops : a.queueDrops ≤ 255 → drops ≤ 255) :
    a.Moves refresh { a with queue := q, slot := slot, quietCount := quiet, queueDrops := drops } where
  queue h := by
    obtain ⟨h8, hpair, -, hactive⟩ := h
    rw [pairwise_sameClass_iff] at hpair
    exact ⟨hlen h8, (pairwise_sameClass_iff _).2 (hclasses hpair), fun hn => absurd (htakes.symm.trans hn) Bool.noConfusion,
      fun hs => hactive (hslot hs)⟩
  counts _ h := by
    obtain ⟨hlead, hkey, hq, hrx, hecho, hd⟩ := h
    exact ⟨hlead, hkey, hquiet.trans hq, hrx, hecho, hdrops hd⟩

end LinkController.Moves

/-! ### The classes of a changed queue -/

theorem map_cls_modify {q : List Entry} {i : Nat} {f : Entry → Entry} (h : ∀ old, q[i]? = some old → (f old).cls = old.cls) :
    (q.modify i f).map Entry.cls = q.map Entry.cls := by
  refine List.ext_getElem? fun j => ?_
  rw [List.getElem?_map, List.getElem?_map, List.getElem?_modify]
  by_cases hj : i = j
  · subst hj
    cases hq : q[i]? with
    | none => rfl
    | some old => simpa using h old hq
  · simp [hj]

/-- An entry of a new class put in at any place. -/
theorem nodup_cls_insertIdx {q : List Entry} {e : Entry} (n : Nat) (hnew : ∀ old ∈ q, old.sameClass e = false)
    (hq : (q.map Entry.cls).Nodup) : ((q.insertIdx n e).map Entry.cls).Nodup := by
  rcases le_or_gt n q.length with hn | hn
  · refine ((List.perm_insertIdx e q hn).map _).nodup_iff.2 (List.nodup_cons.2 ⟨fun hmem => ?_, hq⟩)
    obtain ⟨old, hold, hcls⟩ := List.mem_map.1 hmem
    exact (Entry.sameClass_eq_false_iff ..).1 (hnew old hold) hcls
  · rwa [List.insertIdx_of_length_lt hn]

theorem nodup_cls_eraseIdx {q : List Entry} (i : Nat) (hq : (q.map Entry.cls).Nodup) :
    ((q.eraseIdx i).map Entry.cls).Nodup := hq.sublist ((List.eraseIdx_sublist q i).map _)

namespace LinkController.Moves

variable {refresh : Nat} {a : LinkController}

/-- R107: the overflow rule keeps the queue at its length or leaves it alone. -/
theorem overflow {e : Entry} (hnew : ∀ old ∈ a.queue, old.sameClass e = false) (htakes : a.state.takesOffers = true)
    (place quiet : Nat) (hquiet : quiet ≤ a.quietCount) :
    a.Moves refresh { a.overflow e place with quietCount := quiet } := by
  by_cases hrank : e.rank < lowestRank a.queue
  · simp only [LinkController.overflow, if_pos hrank]
    have hne : a.queue ≠ [] := fun h => by
      rw [h] at hrank
      exact absurd hrank (Nat.not_lt_zero _)
    have hi := newestOfRank_lt (lowestRank a.queue) hne
    refine of_queue (fun h8 => ?_) (fun hnd => ?_) htakes (fun hs hn => hs (by rw [hn]; rfl)) hquiet fun _ =>
      Nat.min_le_left _ _
    · refine List.length_insertIdx_le_succ.trans ?_
      rw [List.length_eraseIdx_of_lt hi]
      omega
    · exact nodup_cls_insertIdx _ (fun old hold => hnew old (List.mem_of_mem_eraseIdx hold)) (nodup_cls_eraseIdx _ hnd)
  · simp only [LinkController.overflow, if_neg hrank]
    exact of_queue id id htakes id hquiet fun _ => Nat.min_le_left _ _

theorem offer (e : Entry) : a.Moves refresh (a.offer e) := by
  rw [LinkController.offer]
  split
  case isFalse => exact .rfl
  case isTrue htakes =>
    split
    case h_1 i hfind =>
      obtain ⟨hlt, hsame, -⟩ := List.findIdx?_eq_some_iff_getElem.1 hfind
      have hcls : (a.queue.modify i (·.coalesce e)).map Entry.cls = a.queue.map Entry.cls := map_cls_modify fun old hold => by
        obtain ⟨-, rfl⟩ := List.getElem?_eq_some_iff.1 hold
        exact Entry.cls_coalesce hsame
      exact of_queue (fun h => (List.length_modify _ _ _).trans_le h) (fun h => hcls ▸ h) htakes id (Nat.zero_le _) id
    case h_2 hfind =>
      have hnew := List.findIdx?_eq_none_iff.1 hfind
      split
      case isTrue hroom =>
        refine of_queue (fun _ => by simpa using hroom) (fun hnd => ?_) htakes id (Nat.zero_le _) id
        rw [← List.insertIdx_length_self]
        exact nodup_cls_insertIdx _ hnew hnd
      case isFalse =>
        split
        · exact overflow hnew htakes 8 0 (Nat.zero_le _)
        · refine overflow hnew htakes 8 (a.overflow e 8).quietCount ?_
          rw [LinkController.overflow]
          dsimp only
          split <;> exact le_rfl

end LinkController.Moves

end Sys2Proof.Machine
end

section
/-! PROOFS. The operations on the link controller but the offers (R96 to R113): each keeps the queue sound and its counts in
range. -/

namespace Sys2Proof.Machine

namespace LinkController

/-! ## Offers and the hop counts -/

/-- An offer neither reads nor changes the LEAD count (R109). -/
theorem offer_withLeadCount (l : LinkController) (e : Entry) (n : Nat) :
    LinkController.offer { l with leadCount := n } e = { l.offer e with leadCount := n } := by
  simp only [offer, overflow, overflowAccepts]
  split
  · split
    · rfl
    · split
      · rfl
      · split
        · split <;> rfl
        · split <;> rfl
  · rfl

/-- An offer neither reads nor changes the KEY count (R110). -/
theorem offer_withKeyCount (l : LinkController) (e : Entry) (n : Nat) :
    LinkController.offer { l with keyCount := n } e = { l.offer e with keyCount := n } := by
  simp only [offer, overflow, overflowAccepts]
  split
  · split
    · rfl
    · split
      · rfl
      · split
        · split <;> rfl
        · split <;> rfl
  · rfl

/-- An offer does not read the quiet count (R111). -/
theorem offer_withQuietCount (l : LinkController) (e : Entry) (n : Nat) :
    ({ LinkController.offer { l with quietCount := n } e with quietCount := 0 } : LinkController)
      = { l.offer e with quietCount := 0 } := by
  simp only [offer, overflow, overflowAccepts]
  split
  · split
    · rfl
    · split
      · rfl
      · split
        · split <;> rfl
        · split <;> rfl
  · rfl

namespace Moves

variable {refresh : Nat} {a : LinkController}

theorem offerSome (e : Option Entry) : a.Moves refresh (a.offerSome e) := by
  cases e with
  | some e => exact offer e
  | none => exact .rfl

theorem foldOffers {α : Type} (f : α → Option Entry) (xs : List α) :
    a.Moves refresh (xs.foldl (fun l x => l.offerSome (f x)) a) :=
  List.foldlRecOn (motive := fun l => a.Moves refresh l) xs _ .rfl fun _ hl x _ => hl.trans (offerSome (f x))

/-- R109: a LEAD offered, which sets the LEAD count to 0. -/
theorem lead : a.Moves refresh { a.offer .lead with leadCount := 0 } :=
  (offer .lead).trans (of_counts rfl rfl rfl fun _ h => ⟨Nat.zero_le _, h.2⟩)

/-- R110: a KEY offered, which sets the KEY count to 0. -/
theorem key : a.Moves refresh { a.offer .key with keyCount := 0 } :=
  (offer .key).trans (of_counts rfl rfl rfl fun _ ⟨hlead, _, hrest⟩ => ⟨hlead, Nat.zero_le _, hrest⟩)

/-- R109: the LEAD count at a hop, at most 3 after it. -/
theorem withLeadCount {n : Nat} (hn : n ≤ 3) : a.Moves refresh { a with leadCount := n } :=
  of_counts rfl rfl rfl fun _ h => ⟨hn, h.2⟩

/-- R110: the KEY count at a hop, at most 127 after it. -/
theorem withKeyCount {n : Nat} (hn : n ≤ 127) : a.Moves refresh { a with keyCount := n } :=
  of_counts rfl rfl rfl fun _ ⟨hlead, _, hrest⟩ => ⟨hlead, hn, hrest⟩

/-- R111: the quiet count at a hop, below REFRESH after it. -/
theorem withQuietCount {n : Nat} (hn : refresh ≤ 64 → n ≤ 63) : a.Moves refresh { a with quietCount := n } :=
  of_counts rfl rfl rfl fun hr ⟨hlead, hkey, _, hrest⟩ => ⟨hlead, hkey, hn hr, hrest⟩

/-! ## Sending -/

/-- R97: an entry goes back to the queue. -/
theorem giveBack (e : Entry) (place : Nat) (htakes : a.state.takesOffers = true) :
    a.Moves refresh (a.giveBack e place) := by
  rw [LinkController.giveBack]
  split
  case h_1 i _ =>
    have hcls : (a.queue.modify i (·.keepStanding e)).map Entry.cls = a.queue.map Entry.cls :=
      map_cls_modify fun old _ => old.cls_keepStanding e
    exact of_queue (fun h => (List.length_modify _ _ _).trans_le h) (fun h => hcls ▸ h) htakes id le_rfl id
  case h_2 hfind =>
    have hnew := List.findIdx?_eq_none_iff.1 hfind
    split
    case isTrue hroom =>
      exact of_queue (fun _ => List.length_insertIdx_le_succ.trans hroom) (nodup_cls_insertIdx place hnew) htakes id le_rfl id
    case isFalse =>
      have hquiet : (a.overflow e place).quietCount ≤ a.quietCount := by
        rw [LinkController.overflow]
        dsimp only
        split <;> exact le_rfl
      exact overflow hnew htakes place _ hquiet

/-- R97: an arbitration lost, in ACTIVE, where the slot is not empty. -/
theorem loseArbitration (winner : Byte) : a.Moves refresh (a.loseArbitration winner) := by
  rw [LinkController.loseArbitration]
  split
  case h_2 => exact .rfl
  case h_1 t ht =>
    split
    case isFalse => exact .rfl
    case isTrue =>
      have hempty : LinkController.Moves refresh a { a with slot := none, receiver := .taking, rxBytes := [winner] } :=
        ⟨fun ⟨hlength, hclasses, hempty, _⟩ => ⟨hlength, hclasses, hempty, fun hs => absurd rfl hs⟩, fun _ h => h⟩
      by_cases hactive : a.state = .active
      · exact hempty.trans (giveBack t.entry t.place (by show a.state.takesOffers = true; rw [hactive]; rfl))
      · refine ⟨fun ⟨_, _, _, hslot⟩ => absurd (hslot (by rw [ht]; exact Option.some_ne_none t)) hactive, fun hr h => ?_⟩
        have hcounts : ∀ l : LinkController, l.countsOk → (l.giveBack t.entry t.place).countsOk := by
          intro l hl
          obtain ⟨hlead, hkey, hquiet, hrx, hecho, hdrops⟩ := hl
          simp only [LinkController.giveBack, LinkController.overflow]
          split
          · exact ⟨hlead, hkey, hquiet, hrx, hecho, hdrops⟩
          · split
            · exact ⟨hlead, hkey, hquiet, hrx, hecho, hdrops⟩
            · split <;> exact ⟨hlead, hkey, hquiet, hrx, hecho, Nat.min_le_left _ _⟩
        exact hcounts _ h

/-- R98: a frame that ends leaves the slot empty. -/
theorem slotEmptied {r : Receiver} : a.Moves refresh { a with slot := none, receiver := r } :=
  ⟨fun ⟨hlength, hclasses, hempty, _⟩ => ⟨hlength, hclasses, hempty, fun hs => absurd rfl hs⟩, fun _ h => h⟩

theorem echoMismatch : a.Moves refresh a.echoMismatch := by
  rw [LinkController.echoMismatch]
  split
  · exact (slotEmptied (r := a.receiver.await)).trans (of_counts rfl rfl rfl
      fun _ ⟨hlead, hkey, hquiet, hcrc, _, hdrops⟩ => ⟨hlead, hkey, hquiet, hcrc, Nat.min_le_left _ _, hdrops⟩)
  · exact .rfl

theorem frameSent : a.Moves refresh a.frameSent := by
  rw [LinkController.frameSent]
  split
  · exact slotEmptied
  · exact .rfl

/-! ## Link states and the receiver -/

/-- R92: a change of the receiver and its bytes. -/
theorem receiver {r : Receiver} {bytes : List Byte} : a.Moves refresh { a with receiver := r, rxBytes := bytes } :=
  of_counts rfl rfl rfl fun _ h => h

theorem readLevel (level : Bool) : a.Moves refresh (a.readLevel level).1 := by
  obtain ⟨r, bytes, h, -⟩ := a.readLevel_frame level
  rw [h]
  exact receiver

/-- R101: a duplicate is met while no frame is sent. -/
theorem muted (hslot : a.slot = none) : a.Moves refresh { a with state := .muted, queue := [], stuckMonitor := .off } :=
  ⟨fun _ => ⟨Nat.zero_le _, .nil, fun _ => rfl, fun hs => absurd hslot hs⟩, fun _ h => h⟩

/-- R102, R103: the link takes offers from then on, and sends only in ACTIVE. -/
theorem takesOffers {state : LinkState} {monitor : StuckMonitor} (hstate : state.takesOffers = true)
    (hslot : a.slot = none ∨ state = .active) : a.Moves refresh { a with state := state, stuckMonitor := monitor } :=
  ⟨fun h => ⟨h.1, h.2.1, fun hn => absurd (hstate.symm.trans hn) Bool.noConfusion,
    fun hs => hslot.resolve_left hs⟩, fun _ h => h⟩

theorem rxCrc : a.Moves refresh { a with rxCrc := bump a.rxCrc } :=
  of_counts rfl rfl rfl fun _ ⟨hlead, hkey, hquiet, _, hrest⟩ =>
    ⟨hlead, hkey, hquiet, Nat.min_le_left _ _, hrest⟩

/-- R171: CLEAR. -/
theorem cleared : a.Moves refresh { a with rxCrc := 0, echo := 0, queueDrops := 0 } :=
  of_counts rfl rfl rfl fun _ ⟨hlead, hkey, hquiet, _⟩ =>
    ⟨hlead, hkey, hquiet, Nat.zero_le _, Nat.zero_le _, Nat.zero_le _⟩

end Moves
end LinkController

end Sys2Proof.Machine
end

section
/-! PROOFS. What a step can do to the state, said once: a command other than a reset takes the state along a chain of changes of
single blocks, each with what it keeps. The invariants of the whole machine follow from it change by change. -/

namespace Sys2Proof.Machine

/-! ## The changes of single blocks -/

/-- One change of one block. `port` says which commands make it: the control port's writes and commands (true), or all other
events (false); the setup words change on the port alone and the audio port, the tracker and the samples elsewhere alone. -/
inductive State.Change (port : Bool) (s : State) : State → Prop
  | controller (c : StateController) (hpart : c.part = s.sc.part) (hstation : c.station = s.sc.station) :
    Change port s { s with sc := c }
  /-- An entry to LIVE (R162, R165). -/
  | live (c : StateController) (hfrom : s.sc.part = .setup ∨ s.sc.part = .standby) (hpart : c.part = .live)
    (hstation : c.station = s.sc.station) : Change port s { s with sc := c }
  /-- An entry to STANDBY, every sounding voice faded (R135, R164). -/
  | standby (c : StateController) (hfrom : s.sc.part = .live) (hpart : c.part = .standby)
    (hstation : c.station = s.sc.station) :
    Change port s { s with sc := c, voices := Vector.ofFn fun v => s.voices[v].fadedIfSounding }
  /-- INIT completion (R160). -/
  | ready (hport : port = false) (c : StateController) (hfrom : s.sc.part = .init) (hpart : c.part = .setup)
    (hstation : c.station = s.sc.station) : Change port s { s with sc := c }
  /-- A measurement begun in SETUP, or ended (R10 to R12). -/
  | calibration (c : StateController) (i : InputStage)
    (hfrom : s.sc.part = .setup ∨ (port = false ∧ s.inp.measurement.isSome = true))
    (hto : (c.part = .setup ∧ i.measurement = none) ∨ (c.part = .calibrate ∧ i.measurement.isSome = true))
    (hstation : c.station = s.sc.station)
    (hoffset : i.offset = s.inp.offset ∨ (-524287 ≤ i.offset ∧ i.offset ≤ 524287)) (hlevel : i.level = s.inp.level) :
    Change port s { s with sc := c, inp := i }
  | inputs (i : InputStage) (hmeasure : i.measurement.isSome = s.inp.measurement.isSome) (hoffset : i.offset = s.inp.offset)
    (hlevel : i.level = s.inp.level ∨ (-144 ≤ i.level ∧ i.level ≤ 0)) : Change port s { s with inp := i }
  | audio (hport : port = false) (a : AudioPort) (hcounter : a.sampleCounter = s.ap.sampleCounter)
    (hhop : s.ap.hopCount ≤ 256 → a.hopCount ≤ 256) : Change port s { s with ap := a }
  /-- A sample written under its number (R2, R14). -/
  | sample (hport : port = false) (a : AudioPort) (x : Sample) (hcounter : a.sampleCounter = s.ap.sampleCounter + 1)
    (hhop : a.hopCount ≤ 256) : Change port s { s with ap := a, hm := s.hm.write s.ap.sampleCounter x }
  | emptied (hport : port = false) : Change port s { s with hm := s.hm.empty }
  | tracker (hport : port = false) (p : PitchTracker) (hmarks : s.pt.marks.length ≤ 24 → p.marks.length ≤ 24)
    (hlevel : p.record.level = s.pt.record.level ∨ (-144 ≤ p.record.level ∧ p.record.level ≤ 0))
    (hconfidence : s.pt.record.confidence ≤ 255 → p.record.confidence ≤ 255) : Change port s { s with pt := p }
  | context (c : ContextUnit) (htally : (∀ k : Fin 12, s.cu.tally[k] ≤ 65535) → ∀ k : Fin 12, c.tally[k] ≤ 65535)
    (hdecision : s.cu.decisionCount ≤ 15 → c.decisionCount ≤ 15) (hhold : s.cu.holdCount ≤ 8 → c.holdCount ≤ 8) :
    Change port s { s with cu := c }
  | voices (vs : Vector Voice 8) (h : ∀ v : VoiceIx, s.voices[v].Evolves s.sc.part s.cfg vs[v]) :
    Change port s { s with voices := vs }
  | link (l : LinkController) (h : s.link.Moves s.cfg.refresh l) : Change port s { s with link := l }
  | peers (ps : Vector (Option PeerRecord) 8) (hown : s.peers[s.sc.station] = none → ps[s.sc.station] = none)
    (hages : (∀ p : Station, ∀ r ∈ s.peers[p], r.agesOk) → ∀ p : Station, ∀ r ∈ ps[p], r.agesOk) :
    Change port s { s with peers := ps }
  | mixer (m : BusMixer) (hgain : (∀ b : BusIx, s.bm.buses[b].gain ≤ 152) → ∀ b : BusIx, m.buses[b].gain ≤ 152)
    (hclip : (∀ b : BusIx, s.bm.buses[b].clipCount ≤ 255) → ∀ b : BusIx, m.buses[b].clipCount ≤ 255) :
    Change port s { s with bm := m }
  /-- A setup word of no one voice, written in SETUP (R161). -/
  | setup (hport : port = true) (c : Setup) (hfrom : s.sc.part = .setup)
    (hrange : s.settingsOk → State.settingsOk { s with cfg := c })
    (hsettle : 2 ≤ s.cfg.settle ∧ s.cfg.settle ≤ 32 → 2 ≤ c.settle ∧ c.settle ≤ 32) : Change port s { s with cfg := c }
  /-- A setup word of a voice, written in SETUP (R53, R54, R161). -/
  | voiceSetup (hport : port = true) (v : VoiceIx) (c : VoiceConfig) (hfrom : s.sc.part = .setup)
    (hrange : s.voices[v].cfg.inRange → c.inRange) : Change port s (s.setVoice v { s.voices[v] with cfg := c })

/-- A chain of such changes. -/
def State.Changes (port : Bool) : State → State → Prop := Relation.ReflTransGen (State.Change port)

namespace State.Changes

variable {p : Bool} {s t : State}

protected theorem rfl : s.Changes p s := Relation.ReflTransGen.refl

theorem and_then (h : s.Changes p t) {u : State} (hc : t.Change p u) : s.Changes p u := Relation.ReflTransGen.tail h hc

/-- A step that either does something or nothing. -/
theorem ite {q : Prop} [Decidable q] {u w : State} (hu : q → s.Changes p u) (hw : ¬q → s.Changes p w) :
    s.Changes p (if q then u else w) := by
  split
  case isTrue hq => exact hu hq
  case isFalse hq => exact hw hq

/-- What every change keeps, a chain keeps. -/
theorem keeps {P : State → Prop} (hP : ∀ {a b : State}, a.Change p b → P a → P b) (h : s.Changes p t) (hs : P s) : P t := by
  induction h with
  | refl => exact hs
  | tail _ hc ih => exact hP hc ih

/-! ## Attention, offers and single voices -/

theorem withController (h : s.Changes p t) {c : StateController} (hpart : c.part = t.sc.part)
    (hstation : c.station = t.sc.station) : s.Changes p { t with sc := c } := h.and_then (.controller c hpart hstation)

theorem withLink (h : s.Changes p t) {l : LinkController} (hl : t.link.Moves t.cfg.refresh l) :
    s.Changes p { t with link := l } := h.and_then (.link l hl)

theorem withVoices (h : s.Changes p t) {vs : Vector Voice 8}
    (hvs : ∀ v : VoiceIx, t.voices[v].Evolves t.sc.part t.cfg vs[v]) : s.Changes p { t with voices := vs } :=
  h.and_then (.voices vs hvs)

theorem raise (h : s.Changes p t) (c : Cause) : s.Changes p (t.raise c) := h.withController rfl rfl

theorem offer (h : s.Changes p t) (e : Entry) : s.Changes p (t.offer e) := h.withLink (.offer e)

theorem offerSome (h : s.Changes p t) (e : Option Entry) : s.Changes p (t.offerSome e) := by
  rw [State.offerSome_eq]
  exact h.withLink (.offerSome e)

theorem offerLead (h : s.Changes p t) : s.Changes p t.offerLead := h.withLink .lead

theorem offerKey (h : s.Changes p t) : s.Changes p t.offerKey := h.withLink .key

theorem setVoice (h : s.Changes p t) {v : VoiceIx} {vo : Voice} (hv : t.voices[v].Evolves t.sc.part t.cfg vo) :
    s.Changes p (t.setVoice v vo) := by
  refine h.withVoices fun w => ?_
  have hget := State.setVoice_get t v w vo
  rw [State.setVoice_voices] at hget
  rw [hget]
  split
  case isTrue hw => exact hw ▸ hv
  case isFalse => exact .rfl

theorem mapVoices (h : s.Changes p t) {f : VoiceIx → Voice → Voice}
    (hf : ∀ v : VoiceIx, t.voices[v].Evolves t.sc.part t.cfg (f v t.voices[v])) : s.Changes p (t.mapVoices f) :=
  h.withVoices fun v => by
    rw [Fin.getElem_fin (Vector.ofFn _), Vector.getElem_ofFn]
    exact hf v

theorem putVoice (h : s.Changes p t) {v : VoiceIx} {r : Voice × Bool} (hv : t.voices[v].Evolves t.sc.part t.cfg r.1) :
    s.Changes p (t.putVoice v r) := (h.setVoice hv).offerSome _

/-- All eight voices put back in index order, each with the entry it offers, if any. -/
theorem foldAllVoices (h : s.Changes p t) {f : VoiceIx → Voice × Option Entry}
    (hf : ∀ v : VoiceIx, t.voices[v].Evolves t.sc.part t.cfg (f v).1) :
    s.Changes p ((List.finRange 8).foldl (fun t v => (t.setVoice v (f v).1).offerSome (f v).2) t) := by
  rw [State.foldAllVoices_spec]
  have hv : s.Changes p { t with voices := Vector.ofFn fun w => (f w).1 } := h.withVoices fun v => by
    rw [Fin.getElem_fin (Vector.ofFn _), Vector.getElem_ofFn]
    exact hf v
  exact hv.withLink (.foldOffers (fun v => (f v).2) _)

theorem foldPutVoice (h : s.Changes p t) {f : VoiceIx → Voice × Bool}
    (hf : ∀ v : VoiceIx, t.voices[v].Evolves t.sc.part t.cfg (f v).1) :
    s.Changes p ((List.finRange 8).foldl (fun t v => t.putVoice v (f v)) t) :=
  foldAllVoices (f := fun v => ((f v).1, if (f v).2 then some (.drop v) else none)) h hf

/-! ## Context -/

theorem clearFreeCounts (h : s.Changes p t) : s.Changes p t.clearFreeCounts := h.mapVoices fun _ => .clearFreeCount

/-- R45 to R51: a change of the key, the mode or a flag of the Context Unit. -/
theorem withKey (h : s.Changes p t) {c : ContextUnit} (htally : c.tally = t.cu.tally)
    (hdecision : c.decisionCount = t.cu.decisionCount) (hhold : c.holdCount = t.cu.holdCount) :
    s.Changes p { t with cu := c } :=
  h.and_then (.context c (htally ▸ id) (hdecision ▸ id) (hhold ▸ id))

theorem noteContextChange (h : s.Changes p t) : s.Changes p t.noteContextChange := by
  have hnoted : s.Changes p { t with
      cu := { t.cu with changed := true }, sc := { t.sc with capture := t.sc.capture.map Capture.keepChanged } } :=
    (h.withKey (c := { t.cu with changed := true }) rfl rfl rfl).withController rfl rfl
  exact (hnoted.raise .context).clearFreeCounts

theorem setContext (h : s.Changes p t) (key : Key) (mode : KeyMode) (openDecision : Bool) :
    s.Changes p (t.setContext key mode openDecision) := by
  rcases t.setContext_cases key mode openDecision with ⟨-, -, hset⟩ | ⟨-, hset⟩
  · rw [hset]
    exact h.withKey rfl rfl rfl
  · rw [hset]
    exact (h.withKey (c := { t.cu with key := key, mode := mode, openDecision := openDecision }) rfl rfl
      rfl).noteContextChange.offerKey

theorem releasePin (h : s.Changes p t) : s.Changes p t.releasePin := h.setContext _ _ _

/-- R36, R37: the held note and a hold count in range. -/
theorem withHeld (h : s.Changes p t) (held : Option Nat) {count : Nat} (hcount : t.cu.holdCount ≤ 8 → count ≤ 8) :
    s.Changes p { t with cu := { t.cu with held := held, holdCount := count } } :=
  h.and_then (.context _ id id hcount)

theorem setHeld (h : s.Changes p t) (held : Option Nat) {count : Nat} (hcount : t.cu.holdCount ≤ 8 → count ≤ 8) :
    s.Changes p (t.setHeld held count) :=
  ite (fun _ => h.withHeld held hcount) fun _ => (h.withHeld held hcount).clearFreeCounts

theorem holdLengthEnd (h : s.Changes p t) : s.Changes p t.holdLengthEnd :=
  ite (fun _ => h.setHeld none fun _ => Nat.zero_le _) fun _ => h

/-- R36, R37: a hold of one more hop, ended past eight. -/
theorem heldNoteWork (h : s.Changes p t) : s.Changes p t.heldNoteWork := by
  refine ite (fun _ => h.setHeld _ fun _ => Nat.zero_le _) fun _ => ite (fun hheld => ?_) fun _ => h
  refine ite (fun _ => ?_) fun hcount => ?_
  · have hnone := h.withHeld none (count := 0) fun _ => Nat.zero_le _
    exact ite (fun _ => hnone) fun _ => hnone.clearFreeCounts
  · refine h.withHeld t.cu.held fun _ => ?_
    by_contra hlt
    exact hcount ⟨hheld, not_le.1 hlt⟩

theorem feed_le {tally : Vector Nat 12} (h : ∀ k : Fin 12, tally[k] ≤ 65535) (note confidence : Nat) (k : Fin 12) :
    (feed tally note confidence)[k] ≤ 65535 := by
  rw [feed, Fin.getElem_fin, Vector.getElem_set]
  split
  · exact Nat.min_le_left _ _
  · exact h k

/-- R39, R40: weights decay and are fed up to 65535. -/
theorem tallyWork (h : s.Changes p t) : s.Changes p t.tallyWork := by
  refine h.and_then (.context _ (fun hs => ?_) id id)
  have hdecayed : ∀ k : Fin 12, (Vector.ofFn fun k : Fin 12 => decayed t.cu.tally[k])[k] ≤ 65535 := fun k => by
    rw [Fin.getElem_fin, Vector.getElem_ofFn]
    exact (Nat.sub_le _ _).trans (hs k)
  have hown : ∀ k : Fin 12, (t.feedOwn (Vector.ofFn fun k => decayed t.cu.tally[k]))[k] ≤ 65535 := fun k => by
    rw [State.feedOwn]
    split
    · split
      · exact feed_le hdecayed _ _ k
      · exact hdecayed k
    · exact hdecayed k
  refine List.foldlRecOn (motive := fun tally : Vector Nat 12 => ∀ k : Fin 12, tally[k] ≤ 65535) _ _ hown
    fun tally ht q _ k => ?_
  split
  · exact feed_le ht _ _ k
  · exact ht k

theorem atDecision_frame (c : ContextUnit) :
    c.atDecision.tally = c.tally ∧ c.atDecision.decisionCount = 0 ∧ c.atDecision.holdCount = c.holdCount := by
  rw [ContextUnit.atDecision]
  split <;> exact ⟨rfl, rfl, rfl⟩

/-- R41: a decision hop sets the decision count to 0. -/
theorem withDecision (h : s.Changes p t) {c : ContextUnit} (htally : c.tally = t.cu.tally)
    (hhold : c.holdCount = t.cu.holdCount) : s.Changes p { t with cu := c.atDecision } := by
  obtain ⟨htally', hdecision, hhold'⟩ := atDecision_frame c
  refine h.and_then (.context _ ?_ (fun _ => hdecision ▸ Nat.zero_le _) ?_)
  · rw [htally', htally]
    exact id
  · rw [hhold', hhold]
    exact id

theorem decisionDue (h : s.Changes p t) : s.Changes p t.decisionDue := by
  have hdecided := h.withDecision (c := t.cu) rfl rfl
  exact ite (fun _ => ite (fun _ => hdecided) fun _ => hdecided.noteContextChange) fun _ => h

/-- R41: the decision count of one more hop, 0 again at 16. -/
theorem decisionWork (h : s.Changes p t) : s.Changes p t.decisionWork := by
  have hdecided := h.withDecision (c := { t.cu with decisionCount := t.cu.decisionCount + 1 }) rfl rfl
  refine ite (fun _ => ite (fun _ => hdecided) fun _ => hdecided.noteContextChange) fun hcount => ?_
  exact h.and_then (.context _ id (fun _ => Nat.le_of_lt_succ (not_le.1 hcount)) id)

/-- R35: the Context Unit's work at a hop. -/
theorem contextWork (h : s.Changes p t) : s.Changes p t.contextWork.1 := h.heldNoteWork.tallyWork.decisionWork

theorem keyReceived (h : s.Changes p t) (st : Station) (k : KeyReport) : s.Changes p (t.keyReceived st k) := by
  rw [State.keyReceived]
  split
  · refine ite (fun _ => ?_) fun _ => ite (fun _ => h.releasePin) fun _ => h
    split
    · exact h
    · exact h.setContext _ _ _
  · exact h

theorem holdLengthEvent (h : s.Changes p t) : s.Changes p t.holdLengthEvent :=
  ite (fun _ => h.holdLengthEnd) fun _ => h.holdLengthEnd.offerLead

theorem decisionEvent (h : s.Changes p t) : s.Changes p t.decisionEvent :=
  ite (fun _ => h.decisionDue) fun _ => h.decisionDue.offerKey

end State.Changes
end Sys2Proof.Machine
end

section
/-! PROOFS. The chain of changes of `State.Changes` through the Peer Table, the link, the hops and the audio port. -/

namespace Sys2Proof.Machine

/-- R122, R123: the ageing of one station's record: removed past the record limit, and otherwise one hop older. -/
theorem State.agePeer_eq (s : State) (p : Station) : s.agePeer p =
    if s.peerExpires p then s.removePeer p else s.setPeer p (s.peers[p].map (·.older s.cfg.refresh)) := by
  rw [State.agePeer, State.peerExpires, State.recordLimitDue]
  have hset : (s.setPeer p (s.peers[p].map (·.older s.cfg.refresh))).peers[p] = s.peers[p].map (·.older s.cfg.refresh) := by
    simp
  rw [hset]
  cases hr : s.peers[p] with
  | none => rfl
  | some r =>
    have hremove : (s.setPeer p ((some r).map (·.older s.cfg.refresh))).removePeer p = s.removePeer p := by
      have hagain : (s.setPeer p ((some r).map (·.older s.cfg.refresh))).setPeer p none = s.setPeer p none := by
        simp [State.setPeer]
      rw [State.removePeer, hagain, State.removePeer]
    rw [← hremove]
    exact if_congr decide_eq_true_iff.symm rfl rfl


/-! ## Receiving goes on -/

/-- R92, R99, R160: what decides whether a receiver takes frames is as it was. -/
structure State.ReceivesAs (s t : State) : Prop where
  part : t.sc.part = s.sc.part
  held : t.sc.resetHeld = s.sc.resetHeld
  solo : t.link.state = .solo ↔ s.link.state = .solo
  slot : t.link.slot = none ↔ s.link.slot = none

namespace State.ReceivesAs

variable {s t u : State}

protected theorem rfl : s.ReceivesAs s := ⟨rfl, rfl, .rfl, .rfl⟩

protected theorem trans (hst : s.ReceivesAs t) (htu : t.ReceivesAs u) : s.ReceivesAs u :=
  ⟨htu.part.trans hst.part, htu.held.trans hst.held, htu.solo.trans hst.solo, htu.slot.trans hst.slot⟩

theorem offerKey : s.ReceivesAs s.offerKey := by
  refine ⟨rfl, rfl, ?_, ?_⟩
  · show (s.link.offer .key).state = .solo ↔ _
    rw [LinkController.offer_state]
  · have hslot := s.link.offer_slot_entry .key
    show (s.link.offer .key).slot = none ↔ _
    rw [← Option.map_eq_none_iff (f := fun x : TxSlot => x.entry), hslot, Option.map_eq_none_iff]

theorem setContext (key : Key) (mode : KeyMode) (openD : Bool) : s.ReceivesAs (s.setContext key mode openD) := by
  rcases s.setContext_cases key mode openD with ⟨-, -, hset⟩ | ⟨-, hset⟩
  · rw [hset]
    exact ⟨rfl, rfl, .rfl, .rfl⟩
  · rw [hset]
    have hkey := (offerKey (s := State.noteContextChange
      { s with cu := { s.cu with key := key, mode := mode, openDecision := openD } }))
    exact ⟨hkey.part, hkey.held, hkey.solo, hkey.slot⟩

theorem keyReceived (st : Station) (k : KeyReport) : s.ReceivesAs (s.keyReceived st k) := by
  rw [State.keyReceived]
  split
  · split
    · split
      · exact .rfl
      · exact setContext _ _ _
    · split
      · exact setContext _ _ _
      · exact .rfl
  · exact .rfl

/-- R100: a good frame. -/
theorem goodFrame (f : LinkFrame) : s.ReceivesAs (s.goodFrame f) := by
  have hcreated : s.ReceivesAs (s.findOrCreate f.station) := by
    rw [State.findOrCreate]
    split <;> exact ⟨rfl, rfl, .rfl, .rfl⟩
  have happlied : s.ReceivesAs ((s.findOrCreate f.station).applyFrame f.station f) := by
    refine hcreated.trans ?_
    rw [State.applyFrame]
    split <;> exact ⟨rfl, rfl, .rfl, .rfl⟩
  rw [State.goodFrame]
  split
  · exact happlied.trans (keyReceived _ _)
  · exact happlied

theorem duplicate : s.ReceivesAs s.duplicate := by
  rw [State.duplicate]
  split
  · exact .rfl
  · exact .rfl
  case h_3 hsolo => exact ⟨rfl, rfl, iff_of_false LinkState.noConfusion hsolo, .rfl⟩

theorem checkFrame (f : LinkFrame) : s.ReceivesAs (s.checkFrame f) := by
  rw [State.checkFrame]
  split
  · exact ⟨rfl, rfl, .rfl, .rfl⟩
  · split
    · exact .rfl
    · split
      · split
        · exact duplicate
        · exact .rfl
      · exact goodFrame f

theorem takingEnds (rx : Reception) : s.ReceivesAs (s.takingEnds rx) := by
  cases rx with
  | complete f => exact checkFrame f
  | short => exact ⟨rfl, rfl, .rfl, .rfl⟩
  | framingError => exact ⟨rfl, rfl, .rfl, .rfl⟩
  | levels _ => exact .rfl

theorem readLevel (level : Bool) : s.ReceivesAs (s.readLevel level) := by
  have hread : s.ReceivesAs { s with link := (s.link.readLevel level).1 } := by
    obtain ⟨r, bytes, hlevel, -⟩ := s.link.readLevel_frame level
    rw [hlevel]
    exact ⟨rfl, rfl, .rfl, .rfl⟩
  rw [State.readLevel]
  split
  · exact hread.trans (takingEnds _)
  · exact hread

end State.ReceivesAs

end Sys2Proof.Machine

namespace Sys2Proof.Machine.State.Changes

variable {p : Bool} {s t : State}

/-! ## Peer Table -/

/-- One record set, with its ages in range, under a number that is not the own one or with nothing. -/
theorem setPeer (h : s.Changes p t) (st : Station) {r : Option PeerRecord} (hown : st = t.sc.station → t.peers[st] = none → r = none)
    (hages : (∀ q : Station, ∀ r ∈ t.peers[q], r.agesOk) → ∀ r' ∈ r, r'.agesOk) : s.Changes p (t.setPeer st r) := by
  have hget (q : Station) : (t.peers.set st r)[q] = if st = q then r else t.peers[q] := by
    rw [Fin.getElem_fin, Vector.getElem_set]
    simp only [Fin.ext_iff, Fin.getElem_fin]
  refine h.and_then (.peers _ (fun hn => ?_) fun hs q => ?_)
  · rw [hget]
    split
    case isTrue hst => exact hown hst (hst ▸ hn)
    case isFalse => exact hn
  · rw [hget]
    split
    · exact hages hs
    · exact hs q

theorem agesOk_empty : PeerRecord.empty.agesOk := by
  refine ⟨Nat.zero_le _, fun l hl => absurd hl (Option.not_mem_none _), fun v c hc => ?_⟩
  simp [PeerRecord.empty] at hc

/-- R116 to R121: a good frame brings ages of 0. -/
theorem agesOk_apply (f : LinkFrame) {r : PeerRecord} (hr : r.agesOk) : PeerRecord.agesOk { r.apply f with silence := 0 } := by
  obtain ⟨-, hlead, hclaims⟩ := hr
  have hnone : ∀ v : VoiceIx, ∀ c ∈ (Vector.replicate 8 (none : Option PeerClaim))[v], c.age ≤ 255 := fun v c hc => by
    simp at hc
  have hset (n : Nat) (o : Option PeerClaim) (ho : ∀ c ∈ o, c.age ≤ 255) (v : VoiceIx) :
      ∀ c ∈ (Vector.ofFn fun v : VoiceIx => if v.val = n then o else r.claims[v])[v], c.age ≤ 255 := fun c hc => by
    rw [Fin.getElem_fin, Vector.getElem_ofFn] at hc
    split at hc
    · exact ho c hc
    · exact hclaims v c hc
  unfold PeerRecord.apply
  split
  · rw [PeerRecord.removeClaim_eq]
    exact ⟨Nat.zero_le _, hlead, hset _ none fun c hc => absurd hc (Option.not_mem_none _)⟩
  · rw [PeerRecord.insertClaim_eq]
    exact ⟨Nat.zero_le _, hlead, hset _ _ fun c hc => Option.some.inj hc ▸ Nat.zero_le _⟩
  · exact ⟨Nat.zero_le _, fun l hl => Option.some.inj hl ▸ ⟨Nat.zero_le _, Nat.le_of_lt_succ f.b4.isLt⟩, hclaims⟩
  · exact ⟨Nat.zero_le _, hlead, hclaims⟩
  · rw [PeerRecord.applyHello]
    split
    · exact ⟨Nat.zero_le _, fun l hl => absurd hl (Option.not_mem_none _), hnone⟩
    · exact ⟨Nat.zero_le _, hlead, hclaims⟩
  · exact ⟨Nat.zero_le _, hlead, hclaims⟩

/-- R100, R115, R116: a good frame of another station. -/
theorem goodFrame (h : s.Changes p t) {f : LinkFrame} (hst : f.station ≠ t.sc.station) : s.Changes p (t.goodFrame f) := by
  have hcreated : s.Changes p (t.findOrCreate f.station) := by
    rw [State.findOrCreate]
    split
    · exact h
    · exact (h.setPeer f.station (fun heq => absurd heq hst) fun _ r hr => Option.some.inj hr ▸ agesOk_empty).raise .peer
  have hstation : f.station ≠ (t.findOrCreate f.station).sc.station := by
    rw [State.findOrCreate]
    split <;> exact hst
  have happlied : s.Changes p ((t.findOrCreate f.station).applyFrame f.station f) := by
    rw [State.applyFrame]
    split
    case h_1 r hr =>
      exact hcreated.setPeer f.station (fun heq => absurd heq hstation) fun hs r' hr' =>
        Option.some.inj hr' ▸ agesOk_apply f (hs f.station r hr)
    case h_2 => exact hcreated
  exact ite (fun _ => happlied.keyReceived _ _) fun _ => happlied

theorem removePeer (h : s.Changes p t) (st : Station) : s.Changes p (t.removePeer st) := by
  have hremoved := (h.setPeer st (r := none) (fun _ _ => rfl) fun _ r hr => absurd hr (Option.not_mem_none _)).raise .peer
  exact ite (fun _ => hremoved.releasePin) fun _ => hremoved

theorem recordLimitDue (h : s.Changes p t) (st : Station) : s.Changes p (t.recordLimitDue st) := by
  rw [State.recordLimitDue]
  split
  · exact ite (fun _ => h.removePeer st) fun _ => h
  · exact h

theorem ageUp_le (n : Nat) : ageUp n ≤ 255 := Nat.min_le_left _ _

/-- R122: the ages of a record one hop older; its silence is at most the record limit, or the record goes. -/
theorem agesOk_older (refresh : Nat) {r : PeerRecord} (hr : r.agesOk) (hlimit : r.silence + 1 ≤ recordLimit refresh) :
    (r.older refresh).agesOk := by
  obtain ⟨-, hlead, -⟩ := hr
  refine ⟨hlimit.trans (Nat.min_le_right _ _), fun l hl => ?_, fun v c hc => ?_⟩
  · obtain ⟨l', hl', rfl⟩ := Option.map_eq_some_iff.1 hl
    exact ⟨ageUp_le _, (hlead l' hl').2⟩
  · simp only [PeerRecord.older, Fin.getElem_fin, Vector.getElem_ofFn, keepClaim] at hc
    split at hc
    case h_1 k hk =>
      obtain ⟨c', -, rfl⟩ := Option.map_eq_some_iff.1 hk
      split at hc
      · exact absurd hc (Option.not_mem_none _)
      · exact Option.some.inj hc ▸ ageUp_le _
    case h_2 => exact absurd hc (Option.not_mem_none _)

theorem agePeer (h : s.Changes p t) (st : Station) : s.Changes p (t.agePeer st) := by
  rw [State.agePeer_eq]
  refine ite (fun _ => h.removePeer st) fun hstays => ?_
  cases hr : t.peers[st] with
  | none => exact h.setPeer st (fun _ _ => rfl) fun _ r hr' => absurd hr' (Option.not_mem_none _)
  | some r =>
    refine h.setPeer st (fun _ hn => nomatch hr.symm.trans hn) fun hs r' hr' => ?_
    rw [State.peerExpires, hr] at hstays
    exact Option.some.inj hr' ▸ agesOk_older _ (hs st r hr) (not_lt.1 fun hlt => hstays (decide_eq_true hlt))

theorem ageing (h : s.Changes p t) : s.Changes p t.ageing :=
  List.foldlRecOn (motive := fun u => s.Changes p u) _ _ h fun _ hu q _ => hu.agePeer q

theorem claimAgeLimitDue (h : s.Changes p t) (st : Station) (v : VoiceIx) : s.Changes p (t.claimAgeLimitDue st v) := by
  rw [State.claimAgeLimitDue]
  split
  case h_2 => exact h
  case h_1 r hr =>
    split
    case h_2 => exact h
    case h_1 =>
      refine ite (fun _ => h.setPeer st (fun _ hn => nomatch hr.symm.trans hn) fun hs r' hr' => ?_) fun _ => h
      obtain ⟨hsilence, hlead, hclaims⟩ := hs st r hr
      rw [← Option.some.inj hr', PeerRecord.removeClaim_eq]
      refine ⟨hsilence, hlead, fun w c hc => ?_⟩
      rw [Fin.getElem_fin, Vector.getElem_ofFn] at hc
      split at hc
      · exact absurd hc (Option.not_mem_none _)
      · exact hclaims w c hc

/-! ## Link -/

theorem startFrame (h : s.Changes p t) : s.Changes p t.startFrame := by
  refine ite (fun hstart => ?_) fun _ => h
  dsimp only
  split
  case h_2 => exact h
  case h_1 =>
    rw [LinkController.mayStart] at hstart
    simp only [Bool.and_eq_true, decide_eq_true_eq] at hstart
    refine h.withLink ⟨fun hq => ⟨?_, ?_, fun hn => ?_, fun _ => hstart.1.1.1⟩, fun _ hc => hc⟩
    · exact (List.length_eraseIdx_le _ _).trans hq.1
    · exact (pairwise_sameClass_iff _).2 (nodup_cls_eraseIdx _ ((pairwise_sameClass_iff _).1 hq.2.1))
    · rw [show t.link.state = .active from hstart.1.1.1] at hn
      cases hn

/-- R101: a duplicate, met while no frame is sent. -/
theorem duplicate (h : s.Changes p t) (hslot : t.link.slot = none) : s.Changes p t.duplicate := by
  rw [State.duplicate]
  split
  · exact h
  · exact h
  · exact (h.withLink (.muted hslot)).raise .link

theorem checkFrame (h : s.Changes p t) (f : LinkFrame) (hslot : t.link.slot = none) : s.Changes p (t.checkFrame f) :=
  ite (fun _ => h.withLink .rxCrc) fun _ => ite (fun _ => h) fun _ =>
    ite (fun _ => ite (fun _ => h.duplicate hslot) fun _ => h) fun hst => h.goodFrame hst

theorem takingEnds (h : s.Changes p t) (rx : Reception) (hslot : t.link.slot = none) : s.Changes p (t.takingEnds rx) := by
  cases rx with
  | complete f => exact h.checkFrame f hslot
  | short => exact h.withLink .rxCrc
  | framingError => exact h.withLink .rxCrc
  | levels _ => exact h

/-- R92: levels read one after another, with no frame being sent. -/
theorem readLevel (h : s.Changes p t) (level : Bool) (hslot : t.link.slot = none) :
    s.Changes p (t.readLevel level) ∧ (t.readLevel level).link.slot = none := by
  have hread : s.Changes p { t with link := (t.link.readLevel level).1 } := h.withLink (.readLevel level)
  refine ⟨?_, (State.ReceivesAs.readLevel level).slot.2 hslot⟩
  have hslot' : (t.link.readLevel level).1.slot = none := by
    obtain ⟨r, bytes, hlevel, -⟩ := t.link.readLevel_frame level
    rw [hlevel]
    exact hslot
  rw [State.readLevel]
  split
  · exact hread.takingEnds _ hslot'
  · exact hread

theorem receiveFrame (h : s.Changes p t) (rx : Reception) : s.Changes p (t.receiveFrame rx) := by
  refine ite (fun htakes => ?_) fun _ => ?_
  · simp only [State.takesFrames, Bool.and_eq_true, Option.isNone_iff_eq_none] at htakes
    split
    · exact (List.foldlRecOn (motive := fun u => s.Changes p u ∧ u.link.slot = none) _ _ ⟨h, htakes.2⟩
        fun u hu level _ => hu.1.readLevel level hu.2).1
    · exact (h.withLink (.receiver (bytes := []))).takingEnds rx htakes.2
  · split
    · exact ite (fun _ => h) fun _ => h.withLink (.receiver (bytes := t.link.rxBytes))
    · exact h

theorem stuckEntry (h : s.Changes p t) : s.Changes p t.stuckEntry :=
  ite (fun hs => (h.withLink (.takesOffers rfl (.inl hs.2))).raise .link) fun _ => h

theorem stuckReturn (h : s.Changes p t) : s.Changes p t.stuckReturn :=
  ite (fun _ => h.withLink (.takesOffers rfl (.inr rfl))) fun _ => h

theorem periodicLeadDue (h : s.Changes p t) : s.Changes p t.periodicLeadDue := ite (fun _ => h.offerLead) fun _ => h

theorem periodicKeyDue (h : s.Changes p t) : s.Changes p t.periodicKeyDue := ite (fun _ => h.offerKey) fun _ => h

theorem quietHelloDue (h : s.Changes p t) : s.Changes p t.quietHelloDue :=
  ite (fun _ => (h.offer (.hello false)).withLink (.withQuietCount fun _ => Nat.zero_le _)) fun _ => h

/-- R109: the LEAD count of one more voiced hop, 0 again at 4. -/
theorem leadCount (h : s.Changes p t) (hvoiced : t.pt.record.voiced = true) :
    s.Changes p (State.periodicLeadDue { t with link := { t.link with leadCount := t.link.leadCount + 1 } }) := by
  refine ite (fun _ => ?_) fun hcount => h.withLink (.withLeadCount ?_)
  · rw [State.offerLead, LinkController.offer_withLeadCount]
    exact h.offerLead
  · by_contra hlt
    exact hcount ⟨not_le.1 hlt, hvoiced⟩

/-- R109: the last voiced flag takes the record's, and unvoiced the LEAD count is 0. -/
theorem withLastVoiced (h : s.Changes p t) (b : Bool) : s.Changes p { t with
    link := { t.link with lastVoiced := b, leadCount := if b then t.link.leadCount else 0 } } := by
  refine h.withLink (.of_counts rfl rfl rfl fun _ hc => ⟨?_, hc.2⟩)
  cases b with
  | true => exact hc.1
  | false => exact Nat.zero_le _

theorem leadTriggerSynced (h : s.Changes p t) (heldChanged : Bool) : s.Changes p (t.leadTriggerSynced heldChanged) := by
  rw [State.leadTriggerSynced]
  exact withLastVoiced (ite (fun _ => h.offerLead) fun _ => ite (fun hv => h.leadCount hv) fun _ => h) _

theorem leadTriggerFree (h : s.Changes p t) (heldChanged : Bool) : s.Changes p (t.leadTriggerFree heldChanged) :=
  ite (fun _ => h.offerLead) fun _ => h

/-- R110: the KEY count of one more hop, 0 again at 128. -/
theorem keyTrigger (h : s.Changes p t) (keyChanged : Bool) : s.Changes p (t.keyTrigger keyChanged) := by
  have hoffered : s.Changes p (State.offerKey { t with link := { t.link with keyCount := t.link.keyCount + 1 } }) := by
    rw [State.offerKey, LinkController.offer_withKeyCount]
    exact h.offerKey
  exact ite (fun _ => hoffered) fun _ => ite (fun _ => hoffered) fun hcount =>
    h.withLink (.withKeyCount (Nat.le_of_lt_succ (not_le.1 hcount)))

/-- R111: the quiet count of one more hop, 0 again at REFRESH. -/
theorem quietTrigger (h : s.Changes p t) : s.Changes p t.quietTrigger := by
  refine ite (fun _ => ?_) fun hcount => h.withLink (.withQuietCount fun hr => ?_)
  · have hoffered := (h.offer (.hello false)).withLink (.withQuietCount (n := 0) fun _ => Nat.zero_le _)
    have heq := t.link.offer_withQuietCount (.hello false) (t.link.quietCount + 1)
    exact (congrArg (fun l => s.Changes p { t with link := l }) heq).mpr hoffered
  · have := not_le.1 hcount
    dsimp only at this
    omega

/-- R108: the link controller's work at a hop. -/
theorem linkHopWork (h : s.Changes p t) (synced : Bool) (sig : HopSignals) : s.Changes p (t.linkHopWork synced sig) := by
  have hlead : s.Changes p (if synced then t.leadTriggerSynced sig.heldChanged else t.leadTriggerFree sig.heldChanged) :=
    ite (fun _ => h.leadTriggerSynced _) fun _ => h.leadTriggerFree _
  exact (hlead.keyTrigger _).quietTrigger

end Sys2Proof.Machine.State.Changes
end

section
/-! PROOFS. The chain of changes of single blocks through the hops and the events of the audio port (R1 to R34, R136 to R154). -/

namespace Sys2Proof.Machine

/-! ## The mark list -/

theorem addMark_length_le {marks : List Mark} (h : marks.length ≤ 24) (m : Mark) : (addMark marks m).length ≤ 24 := by
  rw [addMark, List.length_append, List.length_singleton]
  split
  · omega
  · rw [List.length_drop]
    omega

/-- R33: the mark work keeps at most 24 marks. -/
theorem markWork_length_le (h : HistoryMemory) (new : PitchRecord) (prev : Bool) {marks : List Mark}
    (hmarks : marks.length ≤ 24) : (markWork h new prev marks).length ≤ 24 := by
  have haged : (ageMarks h.newest marks).length ≤ 24 := (List.length_filter_le _ _).trans hmarks
  have hstart : (startRow h new.period (ageMarks h.newest marks)).length ≤ 24 := addMark_length_le haged _
  rw [markWork]
  split
  · split
    · split
      · exact List.foldlRecOn (motive := fun ms : List Mark => ms.length ≤ 24) _ _ haged
          fun ms hms _ _ => addMark_length_le hms _
      · exact hstart
    · exact hstart
  · exact haged

namespace State.Changes

variable {p : Bool} {s t : State}

/-! ## Part states -/

/-- R102, R162, R165: an entry to LIVE. -/
theorem enterLive (h : s.Changes p t) (hfrom : t.sc.part = .setup ∨ t.sc.part = .standby) : s.Changes p t.enterLive := by
  have hlive : s.Changes p { t with sc := { t.sc with part := .live, liveEntry := true } } :=
    h.and_then (.live _ hfrom rfl rfl)
  refine ite (fun _ => hlive) fun _ => ?_
  rw [State.linkFirstLive]
  split
  · exact ((hlive.withLink (.takesOffers rfl (.inr rfl))).offer (.hello true)).offerKey
  · exact hlive

theorem returnToLive (h : s.Changes p t) (hfrom : t.sc.part = .setup ∨ t.sc.part = .standby) :
    s.Changes p t.returnToLive := (h.enterLive hfrom).offer _

/-- R135, R164: an entry to STANDBY. -/
theorem takeStandby (h : s.Changes p t) (hfrom : t.sc.part = .live) : s.Changes p t.takeStandby := by
  have hfaded : s.Changes p (State.fadeSounding { t with sc := { t.sc with part := .standby } }) := by
    rw [State.fadeSounding, State.foldFadeEntry_eq _ (List.nodup_finRange 8) _ fun _ _ => rfl, State.foldPutVoice_spec]
    exact (h.and_then (.standby { t.sc with part := .standby } hfrom rfl rfl)).withLink (.foldOffers _ _)
  exact hfaded.offer _

/-- R160: INIT completion. -/
theorem initDone (h : s.Changes false t) : s.Changes false t.initDone :=
  ite (fun hinit => ((h.and_then (.ready rfl { t.sc with part := .setup } hinit rfl rfl)).withLink
    (.receiver (bytes := t.link.rxBytes))).raise .done) fun _ => h

/-! ## Hops -/

theorem onsetWork (h : s.Changes p t) : s.Changes p t.onsetWork :=
  ite (fun hw => h.returnToLive (.inr hw.1)) fun _ => h

theorem atPlace (h : s.Changes p t) (o : HopOrder) (place : Place) : s.Changes p (t.atPlace o place) :=
  have haged : s.Changes p (if o.ageing = place then t.ageing else t) := ite (fun _ => h.ageing) fun _ => h
  ite (fun _ => haged.onsetWork) fun _ => haged

theorem ageAtPlace (h : s.Changes p t) (o : HopOrder) (place : Place) : s.Changes p (t.ageAtPlace o place) :=
  ite (fun _ => h.ageing) fun _ => h

/-- R9, R17: the tracker's work at a synced hop. -/
theorem trackerWork (h : s.Changes false t) : s.Changes false t.trackerWork := by
  have hlevel : s.Changes false { t with inp := { t.inp with level := t.hm.hopLevel } } :=
    h.and_then (.inputs _ rfl rfl (.inr (levelOf_range _)))
  refine hlevel.and_then (.tracker rfl _ (fun hm => markWork_length_le _ _ _ hm) (.inr ?_) fun hc => ?_)
  · rw [State.hopRecord]
    split <;> exact levelOf_range _
  · rw [State.hopRecord]
    split
    · exact Nat.zero_le _
    · exact Nat.sub_le _ _

/-- R55, R68: every voice planned and handed over. -/
theorem plannerWork (h : s.Changes p t) : s.Changes p t.plannerWork := by
  obtain ⟨voices, hplan, hplanned⟩ := t.planVoices_planned
  rw [State.plannerWork, hplan, State.handOverAll, State.foldAllVoices_spec]
  have hv : s.Changes p { t with voices := Vector.ofFn fun w : VoiceIx =>
      (voices[w].handOver (State.renderEnv { t with voices := voices }) t.cfg t.pt.record.voiced w).1 } :=
    h.withVoices fun v => by
      rw [Fin.getElem_fin (Vector.ofFn _), Vector.getElem_ofFn]
      exact .handOver _ v (hplanned v)
  exact hv.withLink (.foldOffers (fun v : VoiceIx =>
    (voices[v].handOver (State.renderEnv { t with voices := voices }) t.cfg t.pt.record.voiced v).2) _)

/-- R6: the work of a synced hop. -/
theorem syncedHopWork (h : s.Changes false t) (o : HopOrder) : s.Changes false (t.syncedHopWork o) := by
  have hcount : s.Changes false { t with ap := { t.ap with hopCount := 0 } } :=
    h.and_then (.audio rfl _ rfl fun _ => Nat.zero_le _)
  exact ((((hcount.trackerWork.atPlace o .beforeContext).contextWork.atPlace o .afterContext).linkHopWork true
    _).atPlace o .afterLink).plannerWork.atPlace o .afterPlanner

theorem syncedHopDue (h : s.Changes false t) (o : HopOrder) : s.Changes false (t.syncedHopDue o) :=
  ite (fun _ => h.syncedHopWork o) fun _ => h

theorem settleHop (h : s.Changes false t) : s.Changes false t.settleHop := h.syncedHopDue _

/-- R7: the work of a free hop. -/
theorem freeHop (h : s.Changes p t) (o : HopOrder) : s.Changes p (t.freeHop o) :=
  ite (fun _ => (((h.ageAtPlace o .beforeContext).contextWork.ageAtPlace o .afterContext).linkHopWork false
    _).ageAtPlace o .afterLink |>.ageAtPlace o .afterPlanner) fun _ => h

/-! ## Frame sync and calibration -/

theorem syncReturn (h : s.Changes false t) : s.Changes false t.syncReturn := by
  have hap : s.Changes false { t with ap := { t.ap with syncPresent := true, hopCount := 0, freeTimer := false } } :=
    h.and_then (.audio rfl _ rfl fun _ => Nat.zero_le _)
  have hemptied : s.Changes false { t with
      ap := { t.ap with syncPresent := true, hopCount := 0, freeTimer := false }, hm := t.hm.empty } :=
    hap.and_then (.emptied rfl)
  exact (hemptied.and_then (.tracker rfl { t.pt with marks := [] } (fun _ => Nat.zero_le _) (.inl rfl) id)).raise .sync

theorem frameSync (h : s.Changes false t) : s.Changes false t.frameSync := by
  have hreturned : s.Changes false (if t.settleHop.ap.syncPresent then t.settleHop else t.settleHop.syncReturn) :=
    ite (fun _ => h.settleHop) fun _ => h.settleHop.syncReturn
  exact hreturned.and_then (.audio rfl _ rfl id)

/-- R11: the clamp of the offset. -/
theorem complete_offset (i : InputStage) (m : Measurement) :
    -524287 ≤ (i.complete m).offset ∧ (i.complete m).offset ≤ 524287 := by
  rw [InputStage.complete]
  split
  · dsimp only
    omega
  · split <;> dsimp only <;> omega

theorem complete_level (i : InputStage) (m : Measurement) : (i.complete m).level = i.level := by
  rw [InputStage.complete]
  split
  · rfl
  · split <;> rfl

theorem measurementDue (h : s.Changes false t) : s.Changes false t.measurementDue := by
  rw [State.measurementDue]
  split
  case h_1 m hm =>
    refine ite (fun _ => ?_) fun _ => h
    have hmeasures : t.inp.measurement.isSome = true := by rw [hm]; rfl
    exact (h.and_then (.calibration { t.sc with part := .setup } { t.inp.complete m with measurement := none }
      (.inr ⟨rfl, hmeasures⟩) (.inl ⟨rfl, rfl⟩) rfl (.inr (complete_offset _ _)) (complete_level _ _))).raise .done
  case h_2 => exact h

/-! ## Samples -/

theorem takeSample (h : s.Changes false t) (raw : Int) : s.Changes false (t.takeSample raw) := by
  have hwritten : s.Changes false { t with
      ap := { t.ap with
        sampleCounter := t.ap.sampleCounter + 1, hopCount := min 256 (t.ap.hopCount + 1), slotOpen := false }
      hm := t.hm.write t.ap.sampleCounter (t.inp.condition raw) } :=
    h.and_then (.sample rfl _ _ rfl (Nat.min_le_left _ _))
  exact hwritten.and_then (.inputs _ (Option.isSome_map ..) rfl (.inl rfl))

theorem afterSample_gain (saturates : Bool) (b : Bus) : (b.afterSample saturates).gain = b.gain := by
  rw [Bus.afterSample]
  split
  · split <;> rfl
  · rfl

theorem afterSample_clipCount_le (saturates : Bool) {b : Bus} (h : b.clipCount ≤ 255) :
    (b.afterSample saturates).clipCount ≤ 255 := by
  rw [Bus.afterSample]
  split
  · split
    · exact h
    · exact Voice.Evolves.bump_le _
  · exact h

/-- R150 to R153: the mixing of a sample. -/
theorem mix (h : s.Changes p t) (samples : Vector Int 8) : s.Changes p (t.mix samples) := by
  have hmarked : s.Changes p (t.mapVoices fun v vo =>
      vo.markClip (outside24 (Vector.ofFn fun b => t.scaledSum samples b)[vo.cfg.bus]) samples[v]) :=
    h.mapVoices fun v => .markClip _ _
  have hmixed := hmarked.and_then (.mixer { t.bm with
      buses := Vector.ofFn fun b =>
        t.bm.buses[b].afterSample (outside24 (Vector.ofFn fun b => t.scaledSum samples b)[b])
      tx := Vector.ofFn fun b => if t.bm.mute then 0 else saturate24 (Vector.ofFn fun b => t.scaledSum samples b)[b] }
    (fun hg b => by
      rw [Fin.getElem_fin (Vector.ofFn _), Vector.getElem_ofFn, afterSample_gain]
      exact hg b)
    fun hc b => by
      rw [Fin.getElem_fin (Vector.ofFn _), Vector.getElem_ofFn]
      exact afterSample_clipCount_le _ (hc b))
  exact ite (fun _ => hmixed.raise .clip) fun _ => hmixed

theorem renderAndMix (h : s.Changes p t) (counts : Vector Bool 8) : s.Changes p (t.renderAndMix counts) := by
  have hrendered : s.Changes p (t.renderSample counts) :=
    h.foldPutVoice (f := fun v => ((t.voices[v].sampleWork t.renderEnv counts[v]).voice,
      (t.voices[v].sampleWork t.renderEnv counts[v]).drop)) fun v => .sampleWork _ _
  exact hrendered.mix _

theorem sampleReceived (h : s.Changes false t) (slot : BitVec 32) (hopFirst : Option HopOrder) :
    s.Changes false (t.sampleReceived slot hopFirst) := by
  refine ite (fun _ => ?_) fun _ => h.settleHop
  have htaken := (h.settleHop.takeSample (rawSample slot)).measurementDue
  cases hopFirst with
  | some o => exact (htaken.syncedHopDue o).renderAndMix _
  | none => exact htaken.renderAndMix _

/-! ## Sync loss -/

theorem lossLead (h : s.Changes p t) : s.Changes p t.lossLead := by
  have hlead : s.Changes p (if t.link.lastVoiced then t.offerLead else t) := ite (fun _ => h.offerLead) fun _ => h
  exact hlead.withLink (.of_counts rfl rfl rfl fun _ hc => hc)

theorem stopVoices (h : s.Changes p t) : s.Changes p t.stopVoices := h.foldPutVoice fun _ => .stop

theorem lossCalibration (h : s.Changes false t) : s.Changes false t.lossCalibration :=
  ite (fun hm => (h.and_then (.calibration { t.sc with part := .setup }
    { t.inp with calAborted := true, measurement := none } (.inr ⟨rfl, hm⟩) (.inl ⟨rfl, rfl⟩) rfl (.inl rfl)
    rfl)).raise .done) fun _ => h

theorem lossBlocks (h : s.Changes false t) : s.Changes false t.lossBlocks := by
  have hap : s.Changes false { t with ap := { t.ap with
      syncPresent := false, monitorTimer := false, hopCount := 0, freeTimer := true, slotOpen := false, sending := none } } :=
    h.and_then (.audio rfl _ rfl fun _ => Nat.zero_le _)
  have hpt := hap.and_then (.tracker rfl { t.pt with record := t.pt.record.silenced } id (.inl rfl) fun _ => Nat.zero_le _)
  refine hpt.and_then (.mixer t.bm.atSyncLoss (fun hg b => ?_) fun hc b => ?_)
  · rw [BusMixer.atSyncLoss, Fin.getElem_fin (Vector.ofFn _), Vector.getElem_ofFn]
    exact hg b
  · rw [BusMixer.atSyncLoss, Fin.getElem_fin (Vector.ofFn _), Vector.getElem_ofFn]
    exact hc b

theorem monitorExpiry (h : s.Changes false t) (leadFirst : Bool) : s.Changes false (t.monitorExpiry leadFirst) := by
  refine ite (fun _ => ?_) fun _ => h
  have hloss := h.settleHop.lossBlocks.lossCalibration
  have hstopped : s.Changes false (if leadFirst then t.settleHop.lossBlocks.lossCalibration.lossLead.stopVoices
      else t.settleHop.lossBlocks.lossCalibration.stopVoices.lossLead) :=
    ite (fun _ => hloss.lossLead.stopVoices) fun _ => hloss.stopVoices.lossLead
  exact hstopped.raise .sync

end State.Changes
end Sys2Proof.Machine
end

section
/-! PROOFS. What a command can do, in one statement: a reset, or a chain of changes of single blocks (R157 to R171). -/

namespace Sys2Proof.Machine

/-! ## Clamps -/

theorem clampInt_bounds {lo hi : Int} (h : lo ≤ hi) (x : Int) : lo ≤ clampInt lo hi x ∧ clampInt lo hi x ≤ hi :=
  ⟨le_max_left _ _, max_le h (min_le_left _ _)⟩

theorem clampNat_bounds {lo hi : Nat} (h : lo ≤ hi) (x : Nat) : lo ≤ clampNat lo hi x ∧ clampNat lo hi x ≤ hi :=
  ⟨le_max_left _ _, max_le h (min_le_left _ _)⟩

theorem field_le (w : Word16) (low width : Nat) : field w low width ≤ 2 ^ width - 1 :=
  Nat.le_sub_one_of_lt (Nat.mod_lt _ (Nat.two_pow_pos width))

theorem IntervalRule.inRange_withA {r : IntervalRule} (h : r.inRange) (w : Word16) : (r.withA w).inRange := by
  obtain ⟨-, -, -, -, hfollow, hglide⟩ := h
  obtain ⟨hlow, hhigh⟩ := clampInt_bounds (lo := -14) (hi := 14) (by decide) (signedField w 0 5)
  obtain ⟨hlow', hhigh'⟩ := clampInt_bounds (lo := -14) (hi := 14) (by decide) (signedField w 5 5)
  exact ⟨hlow, hhigh, hlow', hhigh', hfollow, hglide⟩

theorem IntervalRule.inRange_withB {r : IntervalRule} (h : r.inRange) (w : Word16) : (r.withB w).inRange := by
  obtain ⟨hlow, hhigh, hlow', hhigh', -, -⟩ := h
  exact ⟨hlow, hhigh, hlow', hhigh', Nat.min_le_left _ _, Nat.mul_le_mul_left 5 (Nat.min_le_left 240 _)⟩

theorem VoiceConfig.inRange_withLane {c : VoiceConfig} (h : c.inRange) (w : Word16) : (c.withLane w).inRange := by
  obtain ⟨-, -, -, -, hrest⟩ := h
  obtain ⟨hlow, hlow'⟩ := clampNat_bounds (lo := 28) (hi := 96) (by decide) (field w 0 8)
  obtain ⟨hspan, hspan'⟩ := clampNat_bounds (lo := 12) (hi := 36) (by decide) (field w 8 6)
  exact ⟨hlow, hlow', hspan, hspan', hrest⟩

theorem VoiceConfig.inRange_withCfg {c : VoiceConfig} (h : c.inRange) (w : Word16) : (c.withCfg w).inRange := by
  obtain ⟨hlow, hlow', hspan, hspan', -, -, -, -, hgain⟩ := h
  obtain ⟨hattack, hattack'⟩ := clampNat_bounds (lo := 1) (hi := 16) (by decide) (field w 5 5)
  exact ⟨hlow, hlow', hspan, hspan', hattack, hattack', Nat.succ_pos _, Nat.succ_le_succ (field_le w 10 6), hgain⟩

theorem rules_inRange {rules : Vector IntervalRule 4} (h : ∀ i : Fin 4, rules[i].inRange) (i : Fin 4) {r : IntervalRule}
    (hr : r.inRange) (j : Fin 4) : (rules.set i r)[j].inRange := by
  rw [Fin.getElem_fin, Vector.getElem_set]
  split
  · exact hr
  · exact h j

namespace State.Changes

variable {p : Bool} {s t : State}

/-! ## Commands -/

theorem withVoiceWords (h : s.Changes p t) (v : VoiceIx) {c : VoiceConfig}
    (hwords : c = { t.voices[v].cfg with enabled := c.enabled, gain := c.gain })
    (hgain : t.voices[v].cfg.gain ≤ 152 → c.gain ≤ 152) : s.Changes p (t.setVoice v { t.voices[v] with cfg := c }) :=
  h.setVoice ⟨⟨hwords, hgain, id, fun _ _ => id⟩, fun _ => id⟩

theorem takeGo (h : s.Changes p t) (hfrom : t.sc.part = .setup) : s.Changes p t.takeGo :=
  ite (fun _ => h.enterLive (.inl hfrom)) fun _ => h.raise .refused

/-- R10, R12: a measurement begun in SETUP, or abandoned at once. -/
theorem takeCalibrate (h : s.Changes p t) (hfrom : t.sc.part = .setup) (length : Nat) :
    s.Changes p (t.takeCalibrate length) := by
  refine ite (fun _ => ?_) fun _ => ?_
  · exact h.and_then (.calibration { t.sc with part := .calibrate }
      { t.inp with measurement := some { length := length, sum := 0, taken := 0 } } (.inl hfrom) (.inr ⟨rfl, rfl⟩) rfl
      (.inl rfl) rfl)
  · exact (h.and_then (.calibration { t.sc with part := .setup } { t.inp with calAborted := true, measurement := none }
      (.inl hfrom) (.inl ⟨rfl, rfl⟩) rfl (.inl rfl) rfl)).raise .done

theorem takePin (h : s.Changes p t) (arg : Byte) : s.Changes p (t.takePin arg) := by
  rw [State.takePin]
  split
  · exact h.setContext _ _ _
  · exact h.raise .refused

theorem takeUnpin (h : s.Changes p t) : s.Changes p t.takeUnpin := ite (fun _ => h) fun _ => h.releasePin

theorem takeClear (h : s.Changes p t) : s.Changes p t.takeClear := by
  have hvoices : s.Changes p (t.mapVoices fun _ vo => vo.cleared) := h.mapVoices fun _ => .cleared
  have hlink := hvoices.withLink .cleared
  have hmixer := hlink.and_then (.mixer
    { t.bm with buses := Vector.ofFn fun b => { t.bm.buses[b] with clipCount := 0 } }
    (fun hg b => by
      rw [Fin.getElem_fin (Vector.ofFn _), Vector.getElem_ofFn]
      exact hg b)
    fun hc b => by
      rw [Fin.getElem_fin (Vector.ofFn _), Vector.getElem_ofFn]
      exact Nat.zero_le _)
  exact hmixer.and_then (.inputs { t.inp with calClamped := false, calAborted := false } rfl rfl (.inl rfl))

/-- 10.3: which part states take a command. -/
theorem takenIn_iff (c : Command) (q : PartState) : c.takenIn q = true ↔
    match c with
    | .go | .calibrateShort | .calibrateLong => q = .setup
    | .standby => q = .live
    | .wake => q = .standby
    | .pin | .unpin | .clear => q = .setup ∨ q = .live ∨ q = .standby := by
  cases c <;> cases q <;> decide

/-- 10.3: a command in a part state that takes it. -/
theorem takeCommand (h : s.Changes p t) {c : Command} (hc : c.takenIn t.sc.part = true) (arg : Byte) :
    s.Changes p (t.takeCommand c arg) := by
  have hpart := (takenIn_iff c t.sc.part).1 hc
  cases c with
  | go => exact h.takeGo hpart
  | calibrateShort => exact h.takeCalibrate hpart _
  | calibrateLong => exact h.takeCalibrate hpart _
  | standby => exact h.takeStandby hpart
  | wake => exact h.returnToLive (.inr hpart)
  | pin => exact h.takePin arg
  | unpin => exact h.takeUnpin
  | clear => exact h.takeClear

theorem endTransaction (h : s.Changes p t) : s.Changes p t.endTransaction := h.withController rfl rfl

theorem refuse (h : s.Changes p t) : s.Changes p t.refuse := h.raise .refused

theorem commandWrite (h : s.Changes p t) (c : Command) (arg : Byte) : s.Changes p (t.commandWrite c arg) :=
  ite (fun _ => h.endTransaction) fun _ =>
    ite (fun hc => h.endTransaction.takeCommand hc arg) fun _ => h.endTransaction.refuse

theorem codeWrite (h : s.Changes p t) (code arg : Byte) : s.Changes p (t.codeWrite code arg) := by
  rw [State.codeWrite]
  split
  · exact h.commandWrite _ arg
  · exact ite (fun _ => h.endTransaction) fun _ => h.endTransaction.refuse

/-! ## Writes -/

theorem withSetup (h : s.Changes true t) {c : Setup} (hfrom : t.sc.part = .setup)
    (hrange : t.settingsOk → State.settingsOk { t with cfg := c })
    (hsettle : 2 ≤ t.cfg.settle ∧ t.cfg.settle ≤ 32 → 2 ≤ c.settle ∧ c.settle ≤ 32) :
    s.Changes true { t with cfg := c } := h.and_then (.setup rfl c hfrom hrange hsettle)

theorem setVoiceCfg (h : s.Changes true t) {v : VoiceIx} {f : VoiceConfig → VoiceConfig} (hfrom : t.sc.part = .setup)
    (hrange : t.voices[v].cfg.inRange → (f t.voices[v].cfg).inRange) : s.Changes true (t.setVoiceCfg v f) :=
  h.and_then (.voiceSetup rfl v _ hfrom hrange)

/-- R129, R152, R165: an ENABLE write. -/
theorem takeEnable (h : s.Changes p t) (w : Word16) : s.Changes p (t.takeEnable w) := by
  have hvoices : s.Changes p (t.writeEnables w) := h.foldPutVoice fun _ => .setEnable _
  have hmixer := hvoices.and_then (.mixer { (t.writeEnables w).bm with mute := w.getLsbD 8 } id id)
  exact hmixer.withController (c := { (t.writeEnables w).sc with wakeOnVoice := w.getLsbD 9 }) rfl rfl

theorem busGain (h : s.Changes p t) (b : BusIx) (w : Word16) : s.Changes p { t with
    bm := { t.bm with buses := t.bm.buses.set b { t.bm.buses[b] with gain := gainCodeOf w } } } := by
  refine h.and_then (.mixer _ (fun hg c => ?_) fun hc c => ?_)
  · rw [Fin.getElem_fin, Vector.getElem_set]
    split
    · exact Nat.min_le_left _ _
    · exact hg c
  · rw [Fin.getElem_fin, Vector.getElem_set]
    split
    · exact hc b
    · exact hc c

/-- R159, R161, R174: a write that is taken; a setup word is taken in SETUP. -/
theorem storeWord (h : s.Changes true t) {n : WordName} (hn : n.access = .setup → t.sc.part = .setup) (w : Word16) :
    s.Changes true (t.storeWord n w) := by
  cases n with
  | attnMask => exact h.withController rfl rfl
  | enable => exact h.takeEnable w
  | busGain b => exact h.busGain b w
  | voiceGain v => exact h.withVoiceWords v rfl fun _ => Nat.min_le_left _ _
  | lane v => exact h.setVoiceCfg (f := (·.withLane w)) (hn rfl) fun hr => VoiceConfig.inRange_withLane hr w
  | voiceCfg v => exact h.setVoiceCfg (f := (·.withCfg w)) (hn rfl) fun hr => VoiceConfig.inRange_withCfg hr w
  | gate =>
    exact h.withSetup (hn rfl) (fun hs => ⟨clampInt_bounds (by decide) _, hs.2⟩) id
  | voiced =>
    refine h.withSetup (hn rfl) (fun hs => ?_) id
    obtain ⟨hgate, hsnap, hsettle, hrefresh, -, -, hrest⟩ := hs
    exact ⟨hgate, hsnap, hsettle, hrefresh, field_le w 0 8, field_le w 8 8, hrest⟩
  | snap =>
    refine h.withSetup (hn rfl) (fun hs => ?_) id
    obtain ⟨hgate, -, hrest⟩ := hs
    exact ⟨hgate, clampNat_bounds (by decide) _, hrest⟩
  | settle =>
    refine h.withSetup (hn rfl) (fun hs => ?_) fun _ => clampNat_bounds (by decide) _
    obtain ⟨hgate, hsnap, -, hrest⟩ := hs
    exact ⟨hgate, hsnap, clampNat_bounds (by decide) _, hrest⟩
  | refresh =>
    refine h.withSetup (hn rfl) (fun hs => ?_) id
    obtain ⟨hgate, hsnap, hsettle, -, hrest⟩ := hs
    exact ⟨hgate, hsnap, hsettle, clampNat_bounds (by decide) _, hrest⟩
  | keycfg => exact (h.withSetup (c := { t.cfg with keycfg := keyConfigOf w }) (hn rfl) id id).setContext _ _ _
  | collide => exact h.withSetup (hn rfl) id id
  | ruleA i =>
    refine h.withSetup (hn rfl) (fun hs => ?_) id
    obtain ⟨hgate, hsnap, hsettle, hrefresh, hvoiced, hhold, hrules, hrest⟩ := hs
    exact ⟨hgate, hsnap, hsettle, hrefresh, hvoiced, hhold, rules_inRange hrules i (IntervalRule.inRange_withA (hrules i) w), hrest⟩
  | ruleB i =>
    refine h.withSetup (hn rfl) (fun hs => ?_) id
    obtain ⟨hgate, hsnap, hsettle, hrefresh, hvoiced, hhold, hrules, hrest⟩ := hs
    exact ⟨hgate, hsnap, hsettle, hrefresh, hvoiced, hhold, rules_inRange hrules i (IntervalRule.inRange_withB (hrules i) w), hrest⟩
  | _ => exact h

/-! ## Reads -/

theorem beginRead (h : s.Changes p t) (addr : BitVec 6) : s.Changes p (t.beginRead addr) := by
  rw [State.beginRead_eq]
  exact h.withController rfl rfl

theorem completeAttn (h : s.Changes p t) : s.Changes p t.completeAttn := by
  rw [State.completeAttn]
  split
  · exact h.withController rfl rfl
  · exact h

theorem completeContext (h : s.Changes p t) : s.Changes p t.completeContext := by
  rw [State.completeContext]
  split
  case h_1 clears _ =>
    exact (h.withKey (c := { t.cu with changed := t.cu.changed && !clears }) rfl rfl rfl).withController
      (c := { t.sc with capture := none }) rfl rfl
  case h_2 => exact h

theorem endRead (h : s.Changes p t) : s.Changes p t.endRead := h.completeAttn.completeContext

end State.Changes

/-! ## Resets -/

/-- R155, R167: every block at its reset values, but for what the control port may hold of a transaction begun since; the free
timer runs unless a reset is held, and the frame being sent is the one sent before, or none. -/
structure State.ResetFrom (s t : State) : Prop where
  blocks : t = { State.atReset t.sc.cause { station := t.sc.station, solo := t.sc.solo } t.pending with
    ap := { AudioPort.reset with freeTimer := !t.sc.resetHeld, sending := t.ap.sending }
    sc := t.sc }
  controller : t.sc = { t.sc with part := .init, causes := 0, mask := 0x40, liveEntry := false, wakeOnVoice := false }
  sending : t.ap.sending = none ∨ t.ap.sending = s.ap.sending

namespace State.ResetFrom

variable {s t : State}

theorem of_atReset (s : State) (cause : StartCause) (straps : Straps) (q : List Instr) :
    s.ResetFrom (State.atReset cause straps q) := ⟨rfl, rfl, .inl rfl⟩

theorem of_holdReset (s u : State) {pin power : Bool} (hheld : (pin || power) = true) (seen : Bool) :
    s.ResetFrom (u.holdReset pin power seen) := by
  refine ⟨?_, rfl, .inl rfl⟩
  have hreset : (u.holdReset pin power seen).sc.resetHeld = true := hheld
  rw [hreset]
  rfl

theorem part (h : s.ResetFrom t) : t.sc.part = .init := by rw [h.controller]

theorem changed (h : s.ResetFrom t) : t.cu.changed = false := by rw [h.blocks]; rfl

/-- What the control port holds is no reset value. -/
theorem withPort (h : s.ResetFrom t) (capture : Option Capture) (shiftOut : Word16) (port : Option (List Bool)) :
    s.ResetFrom { t with sc := { t.sc with capture := capture, shiftOut := shiftOut, port := port } } where
  blocks := congrArg
    (fun u : State => { u with sc := { t.sc with capture := capture, shiftOut := shiftOut, port := port } }) h.blocks
  controller := congrArg
    (fun c : StateController => { c with capture := capture, shiftOut := shiftOut, port := port }) h.controller
  sending := h.sending

theorem completeAttn (h : s.ResetFrom t) : s.ResetFrom t.completeAttn := by
  rw [State.completeAttn]
  split
  case h_1 clears _ =>
    have hcauses : t.sc.causes &&& ~~~clears = t.sc.causes := by
      rw [h.controller]
      exact BitVec.zero_and
    rw [hcauses]
    exact h.withPort none t.sc.shiftOut t.sc.port
  case h_2 => exact h

theorem completeContext (h : s.ResetFrom t) : s.ResetFrom t.completeContext := by
  rw [State.completeContext]
  split
  case h_1 clears _ =>
    have hchanged : (t.cu.changed && !clears) = t.cu.changed := by rw [h.changed, Bool.false_and]
    rw [hchanged]
    exact h.withPort none t.sc.shiftOut t.sc.port
  case h_2 => exact h

end State.ResetFrom

/-! ## The control port -/

/-- What the control port's writes and commands lead to: a reset, or a chain of changes of single blocks. -/
def State.Reaches (s t : State) : Prop := s.Changes true t ∨ s.ResetFrom t

namespace State.Reaches

variable {s t : State}

theorem ap_of_change {a b : State} (h : a.Change true b) : b.ap = a.ap := by
  cases h with
  | audio hport => exact absurd hport Bool.noConfusion
  | sample hport => exact absurd hport Bool.noConfusion
  | _ => rfl

theorem ap_eq (h : s.Changes true t) : t.ap = s.ap :=
  h.keeps (P := fun u => u.ap = s.ap) (fun hc ha => (ap_of_change hc).trans ha) rfl

/-- R167: a write to the RESET word. -/
theorem wordReset (h : s.Changes true t) : s.Reaches t.wordReset := by
  have hsending : t.wordReset.ap.sending = s.ap.sending := by rw [← ap_eq h]; rfl
  exact .inr ⟨rfl, rfl, .inr hsending⟩

theorem endTransaction (h : s.Reaches t) : s.Reaches t.endTransaction :=
  h.imp (·.endTransaction) fun hr => hr.withPort none t.sc.shiftOut t.sc.port

/-- R159: a write of any word. -/
theorem writeData (h : s.Reaches t) (addr : BitVec 6) (w : Word16) : s.Reaches (t.writeData addr w) := by
  rw [State.writeData]
  split
  case isTrue => exact h.endTransaction
  case isFalse hpart =>
    have hc : s.Changes true t := h.resolve_right fun hr => hpart hr.part
    have he := hc.endTransaction
    split
    case h_4 => exact .inl (.ite (fun hs => he.storeWord (fun _ => hs) w) fun _ => he.refuse)
    case h_5 hlive =>
      exact .inl (.ite (fun _ => he.refuse) fun _ =>
        he.storeWord (fun hsetup => Access.noConfusion (hlive.symm.trans hsetup)) w)
    case h_6 => exact .inl (he.codeWrite _ _)
    case h_7 => exact wordReset he
    all_goals exact .inl he

theorem beginRead (h : s.Reaches t) (addr : BitVec 6) : s.Reaches (t.beginRead addr) := by
  refine h.imp (·.beginRead addr) fun hr => ?_
  rw [State.beginRead_eq]
  exact hr.withPort _ _ t.sc.port

theorem endRead (h : s.Reaches t) : s.Reaches t.endRead :=
  h.imp (·.endRead) fun hr => hr.completeAttn.completeContext

theorem withPort (h : s.Reaches t) (capture : Option Capture) (port : Option (List Bool)) :
    s.Reaches { t with sc := { t.sc with capture := capture, port := port } } :=
  h.imp (·.withController rfl rfl) fun hr => hr.withPort capture t.sc.shiftOut port

theorem ite {q : Prop} [Decidable q] {u w : State} (hu : q → s.Reaches u) (hw : ¬q → s.Reaches w) :
    s.Reaches (if q then u else w) := by
  split
  case isTrue hq => exact hu hq
  case isFalse hq => exact hw hq

theorem endOfBits (h : s.Reaches t) (bits : List Bool) : s.Reaches (t.endOfBits bits) :=
  ite (fun _ => ite (fun _ => h.endRead) fun _ => h.writeData _ _) fun _ => h.endTransaction

theorem portEvent (h : s.Reaches t) (e : PortEvent) : s.Reaches (t.portEvent e) := by
  unfold State.portEvent
  split
  · exact h.withPort none (some [])
  · exact ite (fun _ => (h.withPort t.sc.capture _).beginRead _) fun _ => h.withPort t.sc.capture _
  · exact (h.withPort t.sc.capture none).endOfBits _
  · exact h
  · exact h

theorem abandonWhole (h : s.Reaches t) (how : Abandonment) : s.Reaches (t.abandonWhole how) := by
  cases how with
  | count nbits bits =>
    exact ite (fun _ => ite (fun _ => (h.beginRead _).endRead) fun _ => h.writeData _ _) fun _ => h.endTransaction
  | byReset => exact h.endTransaction

/-- R157: what the port's lines lead to, event by event. -/
theorem abandon (h : s.Reaches t) (lines : List PortEvent) (ended : Option Abandonment) :
    s.Reaches (t.abandon lines ended) := by
  have hlines : s.Reaches (lines.foldl State.portEvent t) := List.foldlRecOn _ _ h fun _ ht e _ => ht.portEvent e
  cases ended with
  | some how => exact hlines.abandonWhole how
  | none => exact hlines

end State.Reaches

/-! ## Every command -/

/-- What a command that a held reset keeps from happening can do. -/
theorem State.reach_of_whenReleased {f : State → State} {s t : State}
    (h : whenReleased f s = .next t) (hf : (∃ port, s.Changes port (f s)) ∨ s.ResetFrom (f s)) :
    (∃ port, s.Changes port t) ∨ s.ResetFrom t := by
  rcases whenReleased_cases h with ⟨-, rfl⟩ | ⟨-, rfl⟩
  · exact hf
  · exact .inl ⟨true, .rfl⟩

theorem State.reach_of_changes {f : State → State} {s t : State} {port : Bool} (h : whenReleased f s = .next t)
    (hf : s.Changes port (f s)) : (∃ port, s.Changes port t) ∨ s.ResetFrom t :=
  State.reach_of_whenReleased h (.inl ⟨port, hf⟩)

theorem State.reach_of_reaches {f : State → State} {s t : State} (h : whenReleased f s = .next t) (hf : s.Reaches (f s)) :
    (∃ port, s.Changes port t) ∨ s.ResetFrom t :=
  State.reach_of_whenReleased h (hf.imp (fun hc => ⟨true, hc⟩) id)

theorem State.resetFrom_powerOn (s : State) (phase : PowerOnPhase) : s.ResetFrom (s.powerOn phase) := by
  cases phase with
  | rise => exact .of_holdReset s s (Bool.or_true _) true
  | valid straps =>
    show s.ResetFrom (s.powerOnRelease straps)
    rw [State.powerOnRelease]
    split
    · exact .of_holdReset s s rfl true
    · exact .of_atReset s _ straps s.pending

theorem State.resetFrom_pinRelease (s : State) (straps : Straps) : s.ResetFrom (s.pinRelease straps) := by
  rw [State.pinRelease]
  split
  · exact .of_holdReset s s rfl true
  · exact .of_atReset s _ straps s.pending

/-- A command resets the part, or takes its state along a chain of changes of single blocks. -/
theorem exec_reach {i : Instr} {s t : State} (h : exec i s = .next t) :
    (∃ port, s.Changes port t) ∨ s.ResetFrom t := by
  have hs : s.Changes false s := .rfl
  have hport : s.Changes true s := .rfl
  have hreach : s.Reaches s := .inl hport
  cases i with (rw [exec] at h)
  | powerOnReset phase => cases h; exact .inr (s.resetFrom_powerOn phase)
  | pinReset straps => cases h; exact .inr (s.resetFrom_pinRelease straps)
  | pinResetAsserted => cases h; exact .inr (.of_holdReset s s rfl _)
  | reset data => exact State.reach_of_reaches h (hreach.writeData _ _)
  | initCompletion => exact State.reach_of_changes h hs.initDone
  | frameSync => exact State.reach_of_changes h hs.frameSync
  | sampleReceived slot hopFirst => exact State.reach_of_changes h (hs.sampleReceived slot hopFirst)
  | epoch v => exact State.reach_of_changes h (hs.putVoice (.epochDue _))
  | grainEnd v => exact State.reach_of_changes h (hs.setVoice .endGrains)
  | attackComplete v => exact State.reach_of_changes h (hs.setVoice .attackComplete)
  | fadeEnd v => exact State.reach_of_changes h (hs.setVoice .fadeEnd)
  | holdLimit v => exact State.reach_of_changes h (hs.putVoice (.holdLimitDue _))
  | syncLossEvent leadFirst => exact State.reach_of_changes h (hs.monitorExpiry leadFirst)
  | freeHop order => exact State.reach_of_changes h (hs.freeHop order)
  | syncedHop order => exact State.reach_of_changes h (hs.syncedHopDue order)
  | holdLength => exact State.reach_of_changes h hs.holdLengthEvent
  | decisionHop => exact State.reach_of_changes h hs.decisionEvent
  | periodicLead => exact State.reach_of_changes h hs.periodicLeadDue
  | periodicKey => exact State.reach_of_changes h hs.periodicKeyDue
  | quietHello => exact State.reach_of_changes h hs.quietHelloDue
  | returnToPrimary v =>
    refine State.reach_of_changes (port := false) h ?_
    exact .ite (fun hdue => hs.setVoice (.takePrimary hdue)) fun _ => hs
  | firming v => exact State.reach_of_changes h ((hs.setVoice (.firmDue v)).offerSome _)
  | claimRefresh v => exact State.reach_of_changes h ((hs.setVoice (.refreshDue v)).offerSome _)
  | claimAgeLimit p v => exact State.reach_of_changes h (hs.claimAgeLimitDue p v)
  | recordLimit p => exact State.reach_of_changes h (hs.recordLimitDue p)
  | measurementCompletes => exact State.reach_of_changes h hs.measurementDue
  | calibrateLong arg => exact State.reach_of_changes h (hport.commandWrite _ arg)
  | calibrateShort arg => exact State.reach_of_changes h (hport.commandWrite _ arg)
  | go arg => exact State.reach_of_changes h (hport.commandWrite _ arg)
  | standby arg => exact State.reach_of_changes h (hport.commandWrite _ arg)
  | wake arg => exact State.reach_of_changes h (hport.commandWrite _ arg)
  | pin arg => exact State.reach_of_changes h (hport.commandWrite _ arg)
  | unpin arg => exact State.reach_of_changes h (hport.commandWrite _ arg)
  | clear arg => exact State.reach_of_changes h (hport.commandWrite _ arg)
  | unknownCode code arg => exact State.reach_of_changes h (hport.codeWrite code arg)
  | keycfg data => exact State.reach_of_reaches h (hreach.writeData _ _)
  | enable data => exact State.reach_of_reaches h (hreach.writeData _ _)
  | mute m => exact State.reach_of_reaches h (hreach.writeData _ _)
  | attnMask data => exact State.reach_of_reaches h (hreach.writeData _ _)
  | attn phase =>
    refine State.reach_of_changes (port := true) h ?_
    cases phase with
    | whole => exact (hport.withController (c := State.sc s.captureAttn) rfl rfl).completeAttn
    | capture => exact hport.withController rfl rfl
    | complete => exact hport.completeAttn
  | context phase =>
    refine State.reach_of_changes (port := true) h ?_
    cases phase with
    | whole => exact (hport.withController (c := State.sc s.captureContext) rfl rfl).completeContext
    | capture => exact hport.withController rfl rfl
    | complete => exact hport.completeContext
  | writeWord addr data => exact State.reach_of_reaches h (hreach.writeData _ _)
  | transactionAbandoned lines ended => exact State.reach_of_reaches h (hreach.abandon lines ended)
  | startFrame => exact State.reach_of_changes h hs.startFrame
  | lostArbitration winner => exact State.reach_of_changes h (hs.withLink (.loseArbitration winner))
  | echoMismatch => exact State.reach_of_changes h (hs.withLink .echoMismatch)
  | frameSent => exact State.reach_of_changes h (hs.withLink .frameSent)
  | receiveFrame rx => exact State.reach_of_changes h (hs.receiveFrame rx)
  | stuck => exact State.reach_of_changes h hs.stuckEntry
  | returnToActive => exact State.reach_of_changes h hs.stuckReturn

/-- A step idles, resets the part, or takes its state along a chain of changes of single blocks. -/
theorem step_reach {s t : State} (h : step s = .next t) :
    ∃ q, (∃ port, State.Changes port { s with pending := q } t) ∨ State.ResetFrom { s with pending := q } t := by
  rw [step] at h
  split at h
  case h_1 => cases h; exact ⟨s.pending, .inl ⟨true, .rfl⟩⟩
  case h_2 => exact ⟨_, exec_reach h⟩

end Sys2Proof.Machine
end

section
/-! PROOFS. The invariants of the whole machine: they hold after every reset, and each change of a single block keeps them. -/

namespace Sys2Proof.Machine

/-! ## After a reset -/

theorem State.historyOk_of_reset {t : State} (h : t.hm = HistoryMemory.reset) : t.historyOk := by
  rw [State.historyOk, h]
  exact ⟨HistoryMemory.reset_wf, .inl rfl⟩

theorem LinkController.queueSound_reset (solo : Bool) : (LinkController.reset solo).queueSound :=
  ⟨Nat.zero_le _, List.Pairwise.nil, fun _ => rfl, fun h => absurd rfl h⟩

theorem Voice.claimOk_reset (v : VoiceIx) : (Voice.reset v).claimOk Setup.reset.settle :=
  ⟨rfl, rfl, fun _ => ⟨rfl, rfl, rfl⟩, Nat.succ_pos 7⟩

theorem Voice.countsOk_reset (v : VoiceIx) : (Voice.reset v).countsOk :=
  ⟨fun c hc => absurd hc (Option.not_mem_none c), Nat.zero_le _, Nat.zero_le _, Nat.zero_le _⟩

theorem State.reset_voices (v : VoiceIx) : (Vector.ofFn Voice.reset)[v] = Voice.reset v := by
  rw [Fin.getElem_fin, Vector.getElem_ofFn]

/-- Outside CALIBRATE and with no measurement, reset voices are sound. -/
theorem State.claimsOk_of_reset {t : State} (hcfg : t.cfg = Setup.reset) (hvoices : t.voices = Vector.ofFn Voice.reset)
    (hinp : t.inp = InputStage.reset) (hpart : t.sc.part = .init) : t.claimsOk := by
  rw [State.claimsOk, hcfg, hvoices, hinp, hpart]
  refine ⟨fun v => ?_, fun _ v => ?_, by decide, rfl⟩
  · rw [State.reset_voices]
    exact Voice.claimOk_reset v
  · rw [State.reset_voices]
    rfl

theorem State.rangesOk_of_reset {t : State} (hpt : t.pt = PitchTracker.reset) (hcu : t.cu = ContextUnit.reset)
    (hvoices : t.voices = Vector.ofFn Voice.reset) : t.rangesOk := by
  rw [State.rangesOk, hpt, hcu, hvoices]
  refine ⟨Nat.zero_le _, fun v => ?_, by decide, by decide⟩
  rw [State.reset_voices]
  exact ⟨Nat.zero_le _, Nat.zero_le _⟩

theorem State.settingsOk_of_reset {t : State} (hcfg : t.cfg = Setup.reset) (hvoices : t.voices = Vector.ofFn Voice.reset)
    (hbm : t.bm = BusMixer.reset) : t.settingsOk := by
  rw [State.settingsOk, hcfg, hvoices, hbm]
  exact ⟨by decide, by decide, by decide, by decide, by decide, by decide, by decide, by decide, by decide⟩

theorem State.countsOk_of_reset {t : State} {solo : Bool} (hap : t.ap.hopCount = 0) (hcu : t.cu = ContextUnit.reset)
    (hlink : t.link = LinkController.reset solo) (hvoices : t.voices = Vector.ofFn Voice.reset)
    (hpeers : t.peers = Vector.replicate 8 none) (hbm : t.bm = BusMixer.reset) (hinp : t.inp = InputStage.reset)
    (hpt : t.pt = PitchTracker.reset) : t.countsOk := by
  rw [State.countsOk, hap, hcu, hlink, hvoices, hpeers, hbm, hinp, hpt]
  refine ⟨Nat.zero_le _, by decide, ?_, fun v => ?_, fun p r hr => ?_, by decide, by decide, by decide, by decide, by decide⟩
  · exact ⟨Nat.zero_le _, Nat.zero_le _, Nat.zero_le _, Nat.zero_le _, Nat.zero_le _, Nat.zero_le _⟩
  · rw [State.reset_voices]
    exact Voice.countsOk_reset v
  · rw [Fin.getElem_fin, Vector.getElem_replicate] at hr
    exact absurd hr (Option.not_mem_none r)

theorem State.peersOk_of_reset {t : State} (hpeers : t.peers = Vector.replicate 8 none) : t.peersOk := by
  rw [State.peersOk, hpeers, Fin.getElem_fin, Vector.getElem_replicate]

theorem State.claimsApart_of_reset {t : State} (hvoices : t.voices = Vector.ofFn Voice.reset) : t.claimsApart := by
  intro v w _ hclash
  rw [hvoices, State.reset_voices, State.reset_voices] at hclash
  exact absurd hclash Bool.noConfusion

/-- Settles O52: every block at its reset values meets the invariants that speak of it. -/
theorem resetMeetsInvariants : Obligations.ResetMeetsInvariants := by
  intro cause straps q
  exact ⟨State.historyOk_of_reset rfl, LinkController.queueSound_reset straps.solo,
    State.claimsOk_of_reset rfl rfl rfl rfl, State.claimsApart_of_reset rfl, State.peersOk_of_reset rfl,
    State.rangesOk_of_reset rfl rfl rfl, State.settingsOk_of_reset rfl rfl rfl,
    State.countsOk_of_reset (solo := straps.solo) rfl rfl rfl rfl rfl rfl rfl rfl⟩

namespace State.ResetFrom

variable {s t : State}

theorem inp (h : s.ResetFrom t) : t.inp = InputStage.reset := by rw [h.blocks]; rfl
theorem hm (h : s.ResetFrom t) : t.hm = HistoryMemory.reset := by rw [h.blocks]; rfl
theorem pt (h : s.ResetFrom t) : t.pt = PitchTracker.reset := by rw [h.blocks]; rfl
theorem cu (h : s.ResetFrom t) : t.cu = ContextUnit.reset := by rw [h.blocks]; rfl
theorem cfg (h : s.ResetFrom t) : t.cfg = Setup.reset := by rw [h.blocks]; rfl
theorem voices (h : s.ResetFrom t) : t.voices = Vector.ofFn Voice.reset := by rw [h.blocks]; rfl
theorem link (h : s.ResetFrom t) : t.link = LinkController.reset t.sc.solo := congrArg State.link h.blocks
theorem peers (h : s.ResetFrom t) : t.peers = Vector.replicate 8 none := by rw [h.blocks]; rfl
theorem bm (h : s.ResetFrom t) : t.bm = BusMixer.reset := by rw [h.blocks]; rfl
theorem ap (h : s.ResetFrom t) : t.ap = { AudioPort.reset with freeTimer := !t.sc.resetHeld, sending := t.ap.sending } :=
  congrArg State.ap h.blocks

end State.ResetFrom

/-! ## Change by change -/

/-- What every change of a block keeps and every reset leaves, every step keeps. -/
theorem step_keeps {P : State → Prop} (hchange : ∀ {port : Bool} {a b : State}, a.Change port b → P a → P b)
    (hreset : ∀ {a b : State}, a.ResetFrom b → P b) (hqueue : ∀ {a : State} (q : List Instr), P a → P { a with pending := q })
    {s t : State} (hs : P s) (h : step s = .next t) : P t := by
  obtain ⟨q, ⟨port, hc⟩ | hr⟩ := step_reach h
  · exact hc.keeps hchange (hqueue q hs)
  · exact hreset hr

namespace State.Change

variable {port : Bool} {s t : State}

theorem historyOk (h : s.Change port t) (hs : s.historyOk) : t.historyOk := by
  obtain ⟨hwf, hnumber⟩ := hs
  cases h with
  | audio _ a hcounter => exact ⟨hwf, hnumber.imp id fun hn => hcounter.trans hn⟩
  | sample _ a x hcounter => exact ⟨s.hm.write_wf _ x hwf, .inr hcounter⟩
  | emptied => exact ⟨s.hm.empty_wf, .inl rfl⟩
  | _ => exact ⟨hwf, hnumber⟩

theorem queueOk (h : s.Change port t) (hs : s.queueOk) : t.queueOk := by
  cases h with
  | link l hl => exact hl.queue hs
  | _ => exact hs

theorem peersOk (h : s.Change port t) (hs : s.peersOk) : t.peersOk := by
  cases h with
  | peers ps hown => exact hown hs
  | controller c _ hstation => exact (congrArg (s.peers[·]) hstation).trans hs
  | live c _ _ hstation => exact (congrArg (s.peers[·]) hstation).trans hs
  | standby c _ _ hstation => exact (congrArg (s.peers[·]) hstation).trans hs
  | ready _ c _ _ hstation => exact (congrArg (s.peers[·]) hstation).trans hs
  | calibration c i _ _ hstation => exact (congrArg (s.peers[·]) hstation).trans hs
  | _ => exact hs

end State.Change

/-- Settles O53: a write follows the numbering, and no other change touches the memory but to empty it. -/
theorem stepKeepsHistory : Obligations.StepKeepsHistory := fun _ _ hs h =>
  step_keeps (P := fun u => u.historyOk) State.Change.historyOk (fun hr => State.historyOk_of_reset hr.hm) (fun _ => id) hs h

/-- Settles O54: every change of the link is one of the moves that keep the queue sound. -/
theorem stepKeepsQueue : Obligations.StepKeepsQueue := fun _ _ hs h =>
  step_keeps (P := fun u => u.queueOk) State.Change.queueOk
    (fun {_ t} hr => by
      rw [State.queueOk, hr.link]
      exact LinkController.queueSound_reset t.sc.solo)
    (fun _ => id) hs h

/-- Settles O57: no change writes a record under the own number, and the number itself changes by a reset alone. -/
theorem stepKeepsOwnRecordAbsent : Obligations.StepKeepsOwnRecordAbsent := fun _ _ hs h =>
  step_keeps (P := fun u => u.peersOk) State.Change.peersOk (fun hr => State.peersOk_of_reset hr.peers) (fun _ => id) hs h

/-! ## Claims -/

/-- R135: a voice at entry to STANDBY. -/
theorem Voice.Evolves.fadedIfSounding {part : PartState} {cfg : Setup} {a : Voice} :
    a.Evolves part cfg a.fadedIfSounding := by
  rw [Voice.fadedIfSounding]
  split
  · exact .toFade
  · exact .rfl

theorem Voice.fadedIfSounding_sounding (vo : Voice) : vo.fadedIfSounding.eng.state.sounding = false := by
  rw [Voice.fadedIfSounding]
  split
  case isTrue => rfl
  case isFalse hs => exact Bool.eq_false_of_not_eq_true hs

/-- Claims that stand while the part state changes. -/
theorem State.claimsOk_of_part {s : State} (hs : s.claimsOk) {t : State} (hcfg : t.cfg = s.cfg) (hvoices : t.voices = s.voices)
    (hlive : t.sc.part ≠ .live → s.sc.part ≠ .live)
    (hmeasure : t.inp.measurement.isSome = decide (t.sc.part = .calibrate)) : t.claimsOk := by
  obtain ⟨hok, hsilent, hsettle, -⟩ := hs
  rw [State.claimsOk, hcfg, hvoices]
  exact ⟨hok, fun hne => hsilent (hlive hne), hsettle, hmeasure⟩

/-- Claims of evolved voices, in a part state that is as it was. -/
theorem State.claimsOk_of_evolves {s : State} (hs : s.claimsOk) {vs : Vector Voice 8}
    (h : ∀ v : VoiceIx, s.voices[v].Evolves s.sc.part s.cfg vs[v]) : State.claimsOk { s with voices := vs } := by
  obtain ⟨hok, hsilent, hsettle, hmeasure⟩ := hs
  have hfits (v : VoiceIx) : Voice.claimFits s.sc.part s.cfg.settle vs[v] :=
    (h v).claim hsettle.1 ⟨hok v, fun hne => hsilent hne v⟩
  exact ⟨fun v => (hfits v).1, fun hne v => (hfits v).2 hne, hsettle, hmeasure⟩

namespace State.Change

variable {port : Bool} {s t : State}

theorem claimsOk_standby {c : StateController} (hs : s.claimsOk) (hfrom : s.sc.part = .live) (hpart : c.part = .standby) :
    State.claimsOk { s with sc := c, voices := Vector.ofFn fun v => s.voices[v].fadedIfSounding } := by
  obtain ⟨hok, -, hsettle, -⟩ := State.claimsOk_of_evolves hs (vs := Vector.ofFn fun v => s.voices[v].fadedIfSounding)
    fun v => by
      rw [Fin.getElem_fin (Vector.ofFn _), Vector.getElem_ofFn]
      exact .fadedIfSounding
  refine ⟨hok, fun _ v => ?_, hsettle, ?_⟩
  · rw [Fin.getElem_fin (Vector.ofFn _), Vector.getElem_ofFn]
    exact Voice.fadedIfSounding_sounding _
  · obtain ⟨-, -, -, hmeasure⟩ := hs
    rw [hfrom] at hmeasure
    rw [hpart]
    exact hmeasure

/-- R79, R88: SETTLE is written in SETUP, where no voice holds a claim and every free count is 0. -/
theorem claimsOk_setup {c : Setup} (hs : s.claimsOk) (hfrom : s.sc.part = .setup)
    (hsettle : 2 ≤ s.cfg.settle ∧ s.cfg.settle ≤ 32 → 2 ≤ c.settle ∧ c.settle ≤ 32) :
    State.claimsOk { s with cfg := c } := by
  obtain ⟨hok, hsilent, hrange, hmeasure⟩ := hs
  refine ⟨fun v => ?_, hsilent, hsettle hrange, hmeasure⟩
  obtain ⟨hsounds, hnote, hflags, -⟩ := hok v
  have hsilent' := hsilent (by rw [hfrom]; decide) v
  have hnone : s.voices[v].plan.claim = none := by
    rw [← Option.isNone_iff_eq_none, ← Option.isSome_eq_false_iff]
    exact hsounds.trans hsilent'
  refine ⟨hsounds, hnote, hflags, ?_⟩
  obtain ⟨-, hfree, -⟩ := hflags hnone
  rw [hfree]
  exact lt_of_lt_of_le (by decide) (hsettle hrange).1

/-- R53, R54: the words of a voice are no part of its claim. -/
theorem claimsOk_voiceSetup {v : VoiceIx} {c : VoiceConfig} (hs : s.claimsOk) :
    State.claimsOk (s.setVoice v { s.voices[v] with cfg := c }) := by
  obtain ⟨hok, hsilent, hrest⟩ := hs
  refine ⟨fun w => ?_, fun hne w => ?_, hrest⟩
  · rw [State.setVoice_get]
    split
    · exact hok v
    · exact hok w
  · rw [State.setVoice_get]
    split
    · exact hsilent hne v
    · exact hsilent hne w

theorem claimsOk (h : s.Change port t) (hs : s.claimsOk) : t.claimsOk := by
  obtain ⟨-, -, -, hmeasure⟩ := id hs
  cases h with
  | controller c hpart =>
    refine State.claimsOk_of_part hs rfl rfl (fun hne => hpart ▸ hne) ?_
    rw [hpart]
    exact hmeasure
  | live c hfrom hpart =>
    refine State.claimsOk_of_part hs rfl rfl (fun hne => absurd hpart hne) ?_
    rw [hpart]
    rcases hfrom with hf | hf <;> rw [hf] at hmeasure <;> exact hmeasure
  | standby c hfrom hpart => exact claimsOk_standby hs hfrom hpart
  | ready _ c hfrom hpart =>
    refine State.claimsOk_of_part hs rfl rfl (fun _ => by rw [hfrom]; decide) ?_
    rw [hfrom] at hmeasure
    rw [hpart]
    exact hmeasure
  | calibration c i hfrom hto =>
    refine State.claimsOk_of_part hs rfl rfl (fun _ hlive => ?_) ?_
    · rw [hlive] at hfrom hmeasure
      rcases hfrom with hf | ⟨-, hm⟩
      · exact absurd hf (by decide)
      · exact absurd (hm.symm.trans hmeasure) (by decide)
    · rcases hto with ⟨hp, hm⟩ | ⟨hp, hm⟩ <;> rw [hp, hm] <;> rfl
  | inputs i him => exact State.claimsOk_of_part hs rfl rfl id (him.trans hmeasure)
  | voices vs hvs => exact State.claimsOk_of_evolves hs hvs
  | setup _ c hfrom _ hsettle => exact claimsOk_setup hs hfrom hsettle
  | voiceSetup _ v c => exact claimsOk_voiceSetup hs
  | _ => exact hs

end State.Change

/-- Settles O55: change by change, from what the operations on one voice keep. -/
theorem stepKeepsClaims : Obligations.StepKeepsClaims := fun _ _ hs h =>
  step_keeps (P := fun u => u.claimsOk) State.Change.claimsOk
    (fun hr => State.claimsOk_of_reset hr.cfg hr.voices hr.inp hr.part) (fun _ => id) hs h

/-! ## Ranges, settings and counts -/

namespace State.Change

variable {port : Bool} {s t : State}

/-- What a change does to one voice, but for its words. -/
theorem voice_ranges (h : s.Change port t) (v : VoiceIx) (hv : s.voices[v].eng.rangesOk) : t.voices[v].eng.rangesOk := by
  cases h with
  | voices vs hvs => exact (hvs v).ranges hv
  | standby c =>
    rw [Fin.getElem_fin (Vector.ofFn _), Vector.getElem_ofFn]
    exact (Voice.Evolves.fadedIfSounding (part := .live) (cfg := s.cfg)).ranges hv
  | voiceSetup _ w c =>
    rw [State.setVoice_get]
    split
    case isTrue hw => exact hw ▸ hv
    case isFalse => exact hv
  | _ => exact hv

theorem voice_counts (h : s.Change port t) (hsettle : s.cfg.settle ≤ 32) (hrefresh : s.cfg.refresh ≤ 64) (v : VoiceIx)
    (hv : s.voices[v].countsOk) : t.voices[v].countsOk := by
  cases h with
  | voices vs hvs => exact (hvs v).counts hsettle hrefresh hv
  | standby c =>
    rw [Fin.getElem_fin (Vector.ofFn _), Vector.getElem_ofFn]
    exact (Voice.Evolves.fadedIfSounding (part := .live)).counts hsettle hrefresh hv
  | voiceSetup _ w c =>
    rw [State.setVoice_get]
    split
    case isTrue hw => exact hw ▸ hv
    case isFalse => exact hv
  | _ => exact hv

theorem voice_inRange (h : s.Change port t) (v : VoiceIx) (hv : s.voices[v].cfg.inRange) : t.voices[v].cfg.inRange := by
  cases h with
  | voices vs hvs => exact (hvs v).inRange hv
  | standby c =>
    rw [Fin.getElem_fin (Vector.ofFn _), Vector.getElem_ofFn]
    exact (Voice.Evolves.fadedIfSounding (part := .live) (cfg := s.cfg)).inRange hv
  | voiceSetup _ w c _ hrange =>
    rw [State.setVoice_get]
    split
    case isTrue hw => exact hrange (hw ▸ hv)
    case isFalse => exact hv
  | _ => exact hv

theorem rangesOk (h : s.Change port t) (hs : s.rangesOk) : t.rangesOk := by
  obtain ⟨hmarks, hvoices, htally, hdecision⟩ := hs
  have hv : ∀ v : VoiceIx, t.voices[v].eng.rangesOk := fun v => h.voice_ranges v (hvoices v)
  cases h with
  | tracker _ p hlen => exact ⟨hlen hmarks, hv, htally, hdecision⟩
  | context c ht hd => exact ⟨hmarks, hv, ht htally, hd hdecision⟩
  | _ => exact ⟨hmarks, hv, htally, hdecision⟩

theorem settingsOk (h : s.Change port t) (hs : s.settingsOk) : t.settingsOk := by
  obtain ⟨hgate, hsnap, hsettle, hrefresh, hvoiced, hhold, hrules, hwords, hgain⟩ := hs
  have hv : ∀ v : VoiceIx, t.voices[v].cfg.inRange := fun v => h.voice_inRange v (hwords v)
  cases h with
  | setup _ c _ hrange => exact hrange ⟨hgate, hsnap, hsettle, hrefresh, hvoiced, hhold, hrules, hwords, hgain⟩
  | mixer m hg => exact ⟨hgate, hsnap, hsettle, hrefresh, hvoiced, hhold, hrules, hwords, hg hgain⟩
  | _ => exact ⟨hgate, hsnap, hsettle, hrefresh, hvoiced, hhold, hrules, hv, hgain⟩

/-- A value that stands, or is set within its range. -/
theorem range_of_or {lo hi x y : Int} (h : y = x ∨ (lo ≤ y ∧ y ≤ hi)) (hx : lo ≤ x ∧ x ≤ hi) : lo ≤ y ∧ y ≤ hi :=
  h.elim (fun heq => heq ▸ hx) id

theorem countsOk (h : s.Change port t) (hsettle : s.cfg.settle ≤ 32) (hrefresh : s.cfg.refresh ≤ 64) (hs : s.countsOk) :
    t.countsOk := by
  obtain ⟨hhop, hhold, hlink, hvoices, hpeers, hclip, hoffset, hlevel, hrecord, hconfidence⟩ := hs
  have hv : ∀ v : VoiceIx, t.voices[v].countsOk := fun v => h.voice_counts hsettle hrefresh v (hvoices v)
  cases h with
  | audio _ a _ ha =>
    exact ⟨ha hhop, hhold, hlink, hvoices, hpeers, hclip, hoffset, hlevel, hrecord, hconfidence⟩
  | sample _ a x _ ha => exact ⟨ha, hhold, hlink, hvoices, hpeers, hclip, hoffset, hlevel, hrecord, hconfidence⟩
  | context c _ _ hc => exact ⟨hhop, hc hhold, hlink, hvoices, hpeers, hclip, hoffset, hlevel, hrecord, hconfidence⟩
  | link l hl =>
    exact ⟨hhop, hhold, hl.counts hrefresh hlink, hvoices, hpeers, hclip, hoffset, hlevel, hrecord, hconfidence⟩
  | peers ps _ hp =>
    exact ⟨hhop, hhold, hlink, hvoices, hp hpeers, hclip, hoffset, hlevel, hrecord, hconfidence⟩
  | mixer m _ hm => exact ⟨hhop, hhold, hlink, hvoices, hpeers, hm hclip, hoffset, hlevel, hrecord, hconfidence⟩
  | calibration c i _ _ _ ho hl =>
    exact ⟨hhop, hhold, hlink, hvoices, hpeers, hclip, range_of_or ho hoffset, hl ▸ hlevel, hrecord, hconfidence⟩
  | inputs i _ ho hl =>
    exact ⟨hhop, hhold, hlink, hvoices, hpeers, hclip, ho ▸ hoffset, range_of_or hl hlevel, hrecord, hconfidence⟩
  | tracker _ p _ hl hc =>
    exact ⟨hhop, hhold, hlink, hvoices, hpeers, hclip, hoffset, hlevel, range_of_or hl hrecord, hc hconfidence⟩
  | _ => exact ⟨hhop, hhold, hlink, hv, hpeers, hclip, hoffset, hlevel, hrecord, hconfidence⟩

end State.Change

/-- SETTLE and REFRESH at most their upper limits, with the counts in range. -/
def State.countsKept (s : State) : Prop := s.settingsOk ∧ s.countsOk

theorem State.Change.countsKept {port : Bool} {s t : State} (h : s.Change port t) (hs : s.countsKept) : t.countsKept := by
  obtain ⟨hset, hcounts⟩ := hs
  obtain ⟨-, -, ⟨-, hsettle⟩, ⟨-, hrefresh⟩, -⟩ := id hset
  exact ⟨h.settingsOk hset, h.countsOk hsettle hrefresh hcounts⟩

/-- Settles O58: change by change; the counts need SETTLE and REFRESH in range, which every step keeps too. -/
theorem stepKeepsRanges : Obligations.StepKeepsRanges := by
  refine ⟨fun s t hs h => ?_, fun s t hs h => ?_, fun s t hset hs h => ?_⟩
  · exact step_keeps (P := fun u => u.rangesOk) State.Change.rangesOk
      (fun hr => State.rangesOk_of_reset hr.pt hr.cu hr.voices) (fun _ => id) hs h
  · exact step_keeps (P := fun u => u.settingsOk) State.Change.settingsOk
      (fun hr => State.settingsOk_of_reset hr.cfg hr.voices hr.bm) (fun _ => id) hs h
  · have hkept : t.countsKept := step_keeps (P := fun u => u.countsKept) State.Change.countsKept
      (fun hr => ⟨State.settingsOk_of_reset hr.cfg hr.voices hr.bm, State.countsOk_of_reset (by rw [hr.ap]; rfl) hr.cu hr.link
        hr.voices hr.peers hr.bm hr.inp hr.pt⟩)
      (fun _ => id) ⟨hset, hs⟩ h
    exact hkept.2

/-! ## Setup words -/

/-- R161: the setup words of `t` are those of `s`; the enable bits and the gains of the voices may differ. -/
def State.SameSetup (s t : State) : Prop :=
  t.cfg = s.cfg ∧ ∀ v : VoiceIx,
    t.voices[v].cfg = { s.voices[v].cfg with enabled := t.voices[v].cfg.enabled, gain := t.voices[v].cfg.gain }

theorem State.SameSetup.voices {s t u : State} (h : s.SameSetup t) (hcfg : u.cfg = t.cfg)
    (hwords : ∀ v : VoiceIx, u.voices[v].cfg
      = { t.voices[v].cfg with enabled := u.voices[v].cfg.enabled, gain := u.voices[v].cfg.gain }) : s.SameSetup u := by
  obtain ⟨hsame, hvoices⟩ := h
  exact ⟨hcfg.trans hsame, fun v => by rw [hwords v, hvoices v]⟩

/-- R161: a change outside SETUP keeps the setup words; those of the control port do not enter SETUP, and the others never
write them. -/
theorem State.Change.sameSetup {port : Bool} {s a b : State} (h : a.Change port b)
    (hs : (port = true → a.sc.part ≠ .setup) ∧ s.SameSetup a) : (port = true → b.sc.part ≠ .setup) ∧ s.SameSetup b := by
  obtain ⟨hpart, hsame⟩ := hs
  cases h with
  | controller c hp => exact ⟨fun hport => hp ▸ hpart hport, hsame⟩
  | live c _ hp => exact ⟨fun _ => by rw [hp]; decide, hsame⟩
  | standby c _ hp =>
    refine ⟨fun _ => by rw [hp]; decide, hsame.voices rfl fun v => ?_⟩
    rw [Fin.getElem_fin (Vector.ofFn _), Vector.getElem_ofFn]
    exact (Voice.Evolves.fadedIfSounding (part := .live) (cfg := a.cfg)).words
  | ready hport => exact ⟨fun hp => absurd (hport.symm.trans hp) Bool.noConfusion, hsame⟩
  | calibration c i hfrom =>
    refine ⟨fun hport => ?_, hsame⟩
    rcases hfrom with hf | ⟨hf, -⟩
    · exact absurd hf (hpart hport)
    · exact absurd (hf.symm.trans hport) Bool.noConfusion
  | voices vs hvs => exact ⟨hpart, hsame.voices rfl fun v => (hvs v).words⟩
  | setup hport c hfrom => exact absurd hfrom (hpart hport)
  | voiceSetup hport v c hfrom => exact absurd hfrom (hpart hport)
  | _ => exact ⟨hpart, hsame⟩

/-- Settles O59: outside SETUP the control port does not enter it, and no other change writes a setup word. -/
theorem setupWordsChangeOnlyInSetup : Obligations.SetupWordsChangeOnlyInSetup := by
  intro s t hpart h
  obtain ⟨q, ⟨port, hc⟩ | hr⟩ := step_reach h
  · exact .inl (hc.keeps (P := fun u => (port = true → u.sc.part ≠ .setup) ∧ s.SameSetup u) State.Change.sameSetup
      ⟨fun _ => hpart, rfl, fun _ => rfl⟩).2
  · refine .inr ⟨hr.part, hr.cfg, fun v => ?_⟩
    rw [hr.voices, State.reset_voices]
    rfl

/-! ## LIVE and STANDBY -/

/-- 10.2: in LIVE or STANDBY, with no measurement in progress. -/
def State.performs (s : State) : Prop := s.inp.measurement = none ∧ (s.sc.part = .live ∨ s.sc.part = .standby)

theorem State.Change.performs {port : Bool} {s t : State} (h : s.Change port t) (hs : s.performs) : t.performs := by
  obtain ⟨hmeasure, hpart⟩ := hs
  cases h with
  | controller c hp => exact ⟨hmeasure, hp ▸ hpart⟩
  | live c _ hp => exact ⟨hmeasure, .inl hp⟩
  | standby c _ hp => exact ⟨hmeasure, .inr hp⟩
  | ready _ c hfrom =>
    rw [hfrom] at hpart
    exact absurd hpart (by decide)
  | calibration c i hfrom =>
    rcases hfrom with hf | ⟨-, hm⟩
    · rw [hf] at hpart
      exact absurd hpart (by decide)
    · rw [hmeasure] at hm
      exact absurd hm Bool.noConfusion
  | inputs i him =>
    rw [hmeasure] at him
    exact ⟨Option.isNone_iff_eq_none.1 (Option.isSome_eq_false_iff.1 him), hpart⟩
  | _ => exact ⟨hmeasure, hpart⟩

/-- Settles O60: without a measurement no change leaves LIVE and STANDBY, and a reset leaves INIT. -/
theorem liveIsLeftOnlyByReset : Obligations.LiveIsLeftOnlyByReset := by
  intro s t hmeasure hpart h
  obtain ⟨q, ⟨port, hc⟩ | hr⟩ := step_reach h
  · obtain ⟨-, hlive | hstandby⟩ := hc.keeps (P := State.performs) State.Change.performs ⟨hmeasure, hpart⟩
    · exact .inl hlive
    · exact .inr (.inl hstandby)
  · refine .inr (.inr ⟨hr.part, hr.inp, hr.hm, hr.pt, hr.cu, hr.cfg, fun v => ?_, hr.link, fun p => ?_, hr.bm, ?_, ?_, ?_, ?_,
      hr.ap, hr.sending, rfl, rfl, rfl, rfl, rfl⟩)
    · rw [hr.voices, State.reset_voices]
    · rw [hr.peers, Fin.getElem_fin, Vector.getElem_replicate]
    all_goals rw [hr.controller]

end Sys2Proof.Machine
end

section
/-! PROOFS. The transmit queue at work: offers by the queue's state (R104 to R107), the start of a frame (R96, R106), and the ends of
a frame, by arbitration, echo mismatch or its last stop bit (R97, R98). -/

namespace Sys2Proof.Machine

/-! ## Offers -/

theorem LinkState.takesOffers_iff (l : LinkState) : l.takesOffers = true ↔ l = .active ∨ l = .stuck := by
  cases l <;> decide

theorem LinkController.offer_of_takes_not {l : LinkController} (h : l.state.takesOffers = false) (e : Entry) :
    l.offer e = l := by
  rw [LinkController.offer, h]
  exact if_neg Bool.false_ne_true

/-- R105: what coalescing leaves, as a HELLO against a HELLO or as the offer. -/
theorem Entry.coalesce_eq (old e : Entry) : old.coalesce e = match old, e with
    | .hello f, .hello g => .hello (f || g)
    | _, _ => e := by
  cases old <;> cases e <;> rfl

theorem Entry.keepStanding_eq (standing e : Entry) : standing.keepStanding e = match standing, e with
    | .hello f, .hello g => .hello (f || g)
    | _, _ => standing := by
  cases standing <;> cases e <;> rfl

/-- R104: the classes, kind by kind. -/
theorem Entry.sameClass_cases (a b : Entry) : a.sameClass b = true ↔
    (∃ v : VoiceIx, (a = .drop v ∨ ∃ firm rule note, a = .claim v firm rule note)
      ∧ (b = .drop v ∨ ∃ firm rule note, b = .claim v firm rule note))
    ∨ (a = .lead ∧ b = .lead) ∨ (a = .key ∧ b = .key) ∨ ∃ f g, a = .hello f ∧ b = .hello g := by
  cases a <;> cases b <;> simp [Entry.sameClass, Entry.voice?] <;> exact eq_comm

/-- Settles O40: the four cases of an offer in a state that takes one, each from its own lemma. -/
theorem queueTakesOffers : Obligations.QueueTakesOffers := by
  refine ⟨Entry.sameClass_cases, fun _ _ _ _ _ => ⟨rfl, rfl, rfl, rfl, rfl⟩, fun l e => ⟨fun hactive hstuck => ?_, fun ht => ?_⟩⟩
  · refine LinkController.offer_of_takes_not (Bool.eq_false_of_not_eq_true fun ht => ?_) e
    exact ((LinkState.takesOffers_iff _).1 ht).elim hactive hstuck
  · have htakes := (LinkState.takesOffers_iff _).2 ht
    refine ⟨fun i old hi hsame hfirst => ?_, fun hnew hroom => LinkController.offer_of_room htakes hnew hroom,
      fun hnew hfull hlow => LinkController.offer_of_lowest htakes hnew hfull hlow,
      fun older newer x hnew hfull hq hrank hold hyounger => ?_⟩
    · rw [LinkController.offer_of_same htakes hi hsame hfirst]
      exact ⟨congrArg _ (Entry.coalesce_eq old e), rfl, rfl⟩
    · rw [LinkController.offer_of_overflow htakes hnew hfull hq hrank hold hyounger]
      exact ⟨rfl, rfl, rfl⟩

/-! ## The entry a start takes -/

theorem foldl_min_le (q : List Entry) (m : Nat) :
    q.foldl (fun r e => min r e.rank) m ≤ m ∧ ∀ e ∈ q, q.foldl (fun r e => min r e.rank) m ≤ e.rank := by
  induction q generalizing m with
  | nil => exact ⟨le_rfl, fun e he => absurd he List.not_mem_nil⟩
  | cons e q ih =>
    obtain ⟨hle, hmem⟩ := ih (min m e.rank)
    refine ⟨hle.trans (Nat.min_le_left _ _), fun x hx => ?_⟩
    rcases List.mem_cons.1 hx with rfl | hx
    · exact hle.trans (Nat.min_le_right _ _)
    · exact hmem x hx

theorem foldl_min_attained (q : List Entry) (m : Nat) :
    q.foldl (fun r e => min r e.rank) m = m ∨ ∃ e ∈ q, e.rank = q.foldl (fun r e => min r e.rank) m := by
  induction q generalizing m with
  | nil => exact .inl rfl
  | cons e q ih =>
    rcases ih (min m e.rank) with heq | ⟨x, hx, hrank⟩
    · rcases Nat.le_total m e.rank with hle | hle
      · rw [Nat.min_eq_left hle] at heq
        exact .inl (by rw [List.foldl_cons, Nat.min_eq_left hle, heq])
      · rw [Nat.min_eq_right hle] at heq
        exact .inr ⟨e, List.mem_cons_self, by rw [List.foldl_cons, Nat.min_eq_right hle, heq]⟩
    · exact .inr ⟨x, List.mem_cons_of_mem e hx, hrank⟩

theorem Entry.rank_le (e : Entry) : e.rank ≤ 4 := by
  cases e <;> exact Nat.le_of_ble_eq_true rfl

theorem highestRank_le {q : List Entry} {e : Entry} (h : e ∈ q) : highestRank q ≤ e.rank := (foldl_min_le q 4).2 e h

theorem exists_rank_eq_highestRank {q : List Entry} (h : q ≠ []) : ∃ e ∈ q, e.rank = highestRank q := by
  rcases foldl_min_attained q 4 with heq | hex
  · obtain ⟨e, q', rfl⟩ := List.exists_cons_of_ne_nil h
    refine ⟨e, List.mem_cons_self, le_antisymm ?_ (highestRank_le List.mem_cons_self)⟩
    rw [highestRank, heq]
    exact e.rank_le
  · exact hex

/-- R106: the entry a start takes is the oldest of the highest-ranked kind. -/
theorem nextPlace_spec {q : List Entry} (h : q ≠ []) : ∃ (older newer : List Entry) (e : Entry), q = older ++ e :: newer
    ∧ (∀ x ∈ older, e.rank < x.rank) ∧ (∀ x ∈ newer, e.rank ≤ x.rank) ∧ nextPlace q = older.length := by
  obtain ⟨e, he, hrank⟩ := exists_rank_eq_highestRank h
  have hlt : nextPlace q < q.length := List.findIdx_lt_length_of_exists ⟨e, he, beq_iff_eq.2 hrank⟩
  have hget : q[nextPlace q].rank = highestRank q := beq_iff_eq.1 (List.findIdx_getElem (w := hlt))
  have hsplit : q = q.take (nextPlace q) ++ q[nextPlace q] :: q.drop (nextPlace q + 1) := by
    rw [List.getElem_cons_drop, List.take_append_drop]
  refine ⟨_, _, _, hsplit, fun x hx => ?_, fun x hx => ?_, ?_⟩
  · obtain ⟨j, hj, rfl⟩ := List.mem_take_iff_getElem.1 hx
    have hbefore : j < nextPlace q := lt_of_lt_of_le hj (Nat.min_le_left _ _)
    rw [hget]
    refine lt_of_le_of_ne (highestRank_le (List.getElem_mem _)) fun heq => ?_
    exact absurd (beq_iff_eq.2 heq.symm) (Bool.eq_false_iff.1 (List.not_of_lt_findIdx hbefore))
  · rw [hget]
    exact highestRank_le (List.mem_of_mem_drop hx)
  · rw [List.length_take, Nat.min_eq_left hlt.le]

/-- R94, R96: a start with its queue split at the entry it takes. -/
theorem State.startFrame_spec {s : State} (hstate : s.link.state = .active) (hq : s.link.queue ≠ [])
    (hslot : s.link.slot = none) (hrx : s.link.receiver.isTaking = false) :
    ∃ (older newer : List Entry) (e : Entry), s.link.queue = older ++ e :: newer
      ∧ (∀ x ∈ older, e.rank < x.rank) ∧ (∀ x ∈ newer, e.rank ≤ x.rank)
      ∧ s.startFrame = { s with link := { s.link with
          queue := older ++ newer
          slot := some { entry := e, place := older.length, frame := buildFrame s e }
          receiver := .ready } } := by
  obtain ⟨older, newer, e, hsplit, hold, hnew, hplace⟩ := nextPlace_spec hq
  refine ⟨older, newer, e, hsplit, hold, hnew, ?_⟩
  have hmay : s.link.mayStart = true := by
    rw [LinkController.mayStart, hstate, hslot, hrx, hsplit]
    simp
  have hget : s.link.queue[older.length]? = some e := by rw [hsplit]; simp
  have herase : s.link.queue.eraseIdx older.length = older ++ newer := by
    rw [hsplit, List.eraseIdx_append_of_length_le le_rfl, Nat.sub_self]
    rfl
  simp only [State.startFrame, if_pos hmay, hplace, hget, herase]

/-- Settles O41: the queue splits at the oldest entry of its highest kind, which the start takes. -/
theorem startFrameServesHighestOldest : Obligations.StartFrameServesHighestOldest := by
  intro s hrel hstate hq hslot hrx
  obtain ⟨older, newer, e, hsplit, hold, hnew, hstart⟩ := State.startFrame_spec hstate hq hslot hrx
  refine ⟨older, newer, e, hsplit, hold, hnew, ?_⟩
  rw [exec, execStartFrame, whenReleased_of_released _ _ hrel, hstart]

/-! ## Lost arbitration -/

/-- R97: the arbitration over the low `n` bits compares their numbers. -/
theorem losesBits_range (own winner : Byte) (n : Nat) :
    losesBits own winner (List.range n).reverse = decide (winner.toNat % 2 ^ n < own.toNat % 2 ^ n) := by
  induction n with
  | zero => simp [losesBits, Nat.mod_one]
  | succ n ih =>
    have hown := Nat.mod_lt own.toNat (Nat.two_pow_pos n)
    have hwinner := Nat.mod_lt winner.toNat (Nat.two_pow_pos n)
    rw [List.range_succ, List.reverse_append, List.reverse_singleton, List.singleton_append, losesBits, ih,
      Nat.mod_pow_succ, Nat.mod_pow_succ, ← Nat.toNat_testBit, ← Nat.toNat_testBit, ← BitVec.testBit_toNat, ← BitVec.testBit_toNat]
    cases own.toNat.testBit n <;> cases winner.toNat.testBit n <;> simp [pairLevel] <;> omega

/-- R97: the station driving the greater value loses. -/
theorem losesArbitration_eq (own winner : Byte) : losesArbitration own winner = decide (winner < own) := by
  have h := losesBits_range own winner 8
  rw [Nat.mod_eq_of_lt winner.isLt, Nat.mod_eq_of_lt own.isLt] at h
  exact h

namespace LinkController

/-- R97: the slot is empty and the receiver goes on with the winning frame; the entry is not back yet. -/
def lost (winner : Byte) (l : LinkController) : LinkController :=
  { l with slot := none, receiver := .taking, rxBytes := [winner] }

theorem loseArbitration_of_lt {l : LinkController} {x : TxSlot} {winner : Byte} (hslot : l.slot = some x)
    (hlt : winner < x.frame.b0) : l.loseArbitration winner
      = (l.lost winner).giveBack x.entry x.place := by
  rw [loseArbitration, hslot]
  simp only [losesArbitration_eq, hlt, decide_true, if_true, lost]

/-- R97: a returning entry of a new class that finds room is back at its place. -/
theorem giveBack_of_room {l : LinkController} {e : Entry} (hnew : ∀ old ∈ l.queue, old.sameClass e = false)
    (hroom : l.queue.length < 8) (place : Nat) : l.giveBack e place = { l with queue := l.queue.insertIdx place e } := by
  rw [giveBack, findIdx?_eq_none_of_new hnew]
  exact if_pos hroom

/-- R97: a returning entry leaves the one of its class where it stands. -/
theorem giveBack_of_same {l : LinkController} {e standing : Entry} {i : Nat} (hi : l.queue[i]? = some standing)
    (hsame : standing.sameClass e = true)
    (hfirst : ∀ j other, j < i → l.queue[j]? = some other → other.sameClass e = false) (place : Nat) :
    l.giveBack e place = { l with queue := l.queue.set i (standing.keepStanding e) } := by
  obtain ⟨hlt, hget⟩ := List.getElem?_eq_some_iff.1 hi
  have hfind : l.queue.findIdx? (·.sameClass e) = some i := by
    rw [List.findIdx?_eq_some_iff_getElem]
    refine ⟨hlt, by rw [hget]; exact hsame, fun j hj => ?_⟩
    rw [hfirst j _ hj (List.getElem?_eq_getElem (hj.trans hlt))]
    exact Bool.false_ne_true
  rw [giveBack, hfind]
  simp [List.modify_eq_set_getElem?, hi]

/-- R97, R107: a returning entry that finds no room overflows like an offer. -/
theorem giveBack_of_full {l : LinkController} {e : Entry} (hnew : ∀ old ∈ l.queue, old.sameClass e = false)
    (hfull : 8 ≤ l.queue.length) (place : Nat) : l.giveBack e place = l.overflow e place := by
  rw [giveBack, findIdx?_eq_none_of_new hnew]
  exact if_neg hfull.not_gt

theorem overflow_of_lowest {l : LinkController} {e : Entry} (hlow : ∀ old ∈ l.queue, old.rank ≤ e.rank) (place : Nat) :
    l.overflow e place = { l with queueDrops := bump l.queueDrops } := by
  rw [overflow, if_neg ((lowestRank_le_iff _ _).2 hlow).not_gt]

end LinkController

/-- R97: a lost arbitration at a station that is sending, from what the return of the entry leaves. -/
theorem exec_lostArbitration {s : State} {x : TxSlot} {winner : Byte} {l : LinkController} (hrel : s.sc.resetHeld = false)
    (hslot : s.link.slot = some x) (hlt : winner < x.frame.b0)
    (hback : (s.link.lost winner).giveBack x.entry x.place = l) :
    exec (.lostArbitration winner) s = .next { s with link := l } := by
  rw [exec, execLostArbitration, whenReleased_of_released _ _ hrel, LinkController.loseArbitration_of_lt hslot hlt, hback]

/-- R104: no entry of the class of one that has been taken out of a sound queue is left in it. -/
theorem sameClass_eq_false_of_split {older newer : List Entry} {e : Entry}
    (h : (older ++ e :: newer).Pairwise fun a b => a.sameClass b = false) (x : Entry) (hx : x ∈ older ++ newer) :
    x.sameClass e = false := by
  rw [pairwise_sameClass_iff, List.map_append, List.map_cons, List.nodup_middle, List.nodup_cons] at h
  refine (Entry.sameClass_eq_false_iff x e).2 fun hcls => h.1 ?_
  rw [← List.map_append, ← hcls]
  exact List.mem_map_of_mem hx

theorem insertIdx_between (older newer : List Entry) (e : Entry) :
    (older ++ newer).insertIdx older.length e = older ++ e :: newer := by
  induction older with
  | nil => rfl
  | cons x older ih => rw [List.cons_append, List.length_cons, List.insertIdx_succ_cons, ih, List.cons_append]

/-- Settles O42: the entry returns to a queue that is the old one without it. -/
theorem arbitrationLossRestoresQueue : Obligations.ArbitrationLossRestoresQueue := by
  refine ⟨losesArbitration_eq, fun winner s t hrel hstate hq hslot hrx hok ht hwins => ?_⟩
  obtain ⟨older, newer, e, hsplit, -, -, hstart⟩ := State.startFrame_spec hstate hq hslot hrx
  rw [exec, execStartFrame, whenReleased_of_released _ _ hrel, hstart] at ht
  cases ht
  obtain ⟨hlen, hpair, -⟩ := hok
  rw [hsplit] at hlen hpair
  have hroom : (older ++ newer).length < 8 := by
    simp only [List.length_append, List.length_cons] at hlen ⊢
    omega
  refine exec_lostArbitration hrel rfl (hwins _ rfl)
    ((LinkController.giveBack_of_room (sameClass_eq_false_of_split hpair) hroom _).trans ?_)
  exact congrArg (fun q => { s.link.lost winner with queue := q }) ((insertIdx_between older newer e).trans hsplit.symm)

/-! ## The other ends of a frame -/

/-- R91: a level more on the pair. -/
theorem recessiveRun_append_singleton (levels : List Bool) (level : Bool) :
    recessiveRun (levels ++ [level]) = if level then recessiveRun levels + 1 else 0 := by
  rw [recessiveRun, List.reverse_append, List.reverse_singleton, List.singleton_append]
  cases level <;> rfl

theorem recessiveRun_replicate (n : Nat) : recessiveRun (List.replicate n true) = n := by
  simp [recessiveRun]

/-- R91, R92: a receiver that follows the pair from a wait counts the recessive bits in a row. -/
theorem foldl_follow_waitIdle (n : Nat) (bits : List Bool) :
    bits.foldl Receiver.follow (.waitIdle n) = .waitIdle (recessiveRun (List.replicate n true ++ bits)) := by
  induction bits using List.reverseRecOn with
  | nil => rw [List.append_nil, recessiveRun_replicate]; rfl
  | append_singleton bits level ih =>
    rw [List.foldl_append, ih, ← List.append_assoc, recessiveRun_append_singleton]
    rfl

/-- R92: what a station that is sending does with the levels of the pair. -/
theorem State.receiveFrame_levels_of_slot {s : State} {x : TxSlot} (hslot : s.link.slot = some x)
    (hsolo : s.link.state ≠ .solo) (bits : List Bool) :
    s.receiveFrame (.levels bits) = { s with link := s.link.follow bits } := by
  have htakes : s.takesFrames = false := by rw [State.takesFrames, hslot]; exact Bool.and_false _
  rw [State.receiveFrame, htakes]
  exact if_neg hsolo

theorem Receiver.await_eq (r : Receiver) : r.await = match r with
    | .waitIdle n => if n < 12 then .waitIdle n else .ready
    | _ => .waitIdle := by
  cases r with
  | ready => rfl
  | taking => rfl
  | waitIdle n =>
    rcases Nat.lt_or_ge n 12 with h | h
    · exact (if_neg h.not_ge).trans (if_pos h).symm
    · exact (if_pos h).trans (if_neg h.not_gt).symm

/-- Settles O43: by the end of the frame, and for a lost entry by what the queue holds meanwhile. -/
theorem frameEndsEmptySlot : Obligations.FrameEndsEmptySlot := by
  refine ⟨fun x s hrel hslot => ⟨?_, fun n bits _ hsolo hwait => ?_, ?_⟩, fun winner x s hrel hslot hlt =>
    ⟨fun hnew hroom => ?_, fun i standing hi hsame hfirst => ?_, fun hnew hfull hlow => ?_,
      fun older newer y hnew hfull hq hrank hold hyounger => ?_⟩⟩
  · rw [exec, execEchoMismatch, whenReleased_of_released _ _ hrel, LinkController.echoMismatch, hslot,
      Receiver.await_eq]
    rfl
  · rw [exec, execReceiveFrame, whenReleased_of_released _ _ hrel, State.receiveFrame_levels_of_slot hslot hsolo,
      LinkController.follow, hwait, foldl_follow_waitIdle]
  · rw [exec, execFrameSent, whenReleased_of_released _ _ hrel, LinkController.frameSent, hslot]
  · exact exec_lostArbitration hrel hslot hlt (LinkController.giveBack_of_room (l := s.link.lost winner) hnew hroom _)
  · exact exec_lostArbitration hrel hslot hlt
      ((LinkController.giveBack_of_same (l := s.link.lost winner) hi hsame hfirst _).trans
        (congrArg (fun e => { s.link.lost winner with queue := s.link.queue.set i e }) (Entry.keepStanding_eq _ _)))
  · exact exec_lostArbitration hrel hslot hlt
      ((LinkController.giveBack_of_full (l := s.link.lost winner) hnew hfull _).trans
        (LinkController.overflow_of_lowest (l := s.link.lost winner) hlow _))
  · exact exec_lostArbitration hrel hslot hlt
      ((LinkController.giveBack_of_full (l := s.link.lost winner) hnew hfull.ge _).trans
        (LinkController.overflow_of_split (l := s.link.lost winner) x.place hq hrank hold hyounger))

end Sys2Proof.Machine
end

section
/-! PROOFS. The queue of commands and the resets (10.4, R155, R157, R160, R167): the reset values, the release, the word reset and
the resets held. -/

namespace Sys2Proof.Machine

/-- Settles O1: `step` runs the head of the queue. -/
theorem stepRunsFrontCommand : Obligations.StepRunsFrontCommand := by
  refine ⟨fun c rest s => rfl, fun s h => ?_⟩
  rw [step, h]

/-! ## Reset values -/

/-- 11.4: no word but STATE shows the kind of a reset or its straps. -/
theorem State.wordValue_atReset (cause : StartCause) (straps : Straps) (q : List Instr) {n : WordName} (h : n ≠ .state) :
    (State.atReset cause straps q).wordValue n = State.reset.wordValue n := by
  cases n with
  | state => exact absurd rfl h
  | _ => rfl

theorem State.readWord_atReset (cause : StartCause) (straps : Straps) (q : List Instr) {a : BitVec 6} (h : wordAt a ≠ .state)
    {w : Word16} (hw : State.reset.readWord a = w) : (State.atReset cause straps q).readWord a = w :=
  (State.wordValue_atReset cause straps q h).trans hw

/-- R168: the STATE word after a reset. -/
theorem State.stateWord_atReset (cause : StartCause) (straps : Straps) (q : List Instr) :
    (State.atReset cause straps q).readWord 0x01
      = wordOf (8 * cause.code + 32 * straps.station.val + (if straps.solo then 0x100 else 0) + 0x200
        + (if straps.solo then 0 else 0x0800)) := by
  obtain ⟨station, solo⟩ := straps
  show wordOf (0 + 8 * cause.code + 32 * station.val + flagAt solo 8 + 512 + 0
    + 2048 * (LinkController.reset solo).state.code + 0) = _
  refine congrArg wordOf ?_
  cases solo with
  | false => simp [flagAt, LinkController.reset, LinkState.code]
  | true => simp [flagAt, LinkController.reset, LinkState.code]

/-- R169: with no cause pending the attention line is released. -/
theorem State.attentionLow_of_none {s : State} (h : s.sc.causes = 0) : s.attentionLow = false := by
  rw [State.attentionLow, h]
  exact bne_eq_false_iff_eq.2 BitVec.zero_and

/-- Settles O2: the words are those of any one reset, read by evaluation, and the hidden blocks are the reset values named. -/
theorem resetValuesOfEveryBlock : Obligations.ResetValuesOfEveryBlock := by
  refine ⟨fun cause straps q => ?_, ?_⟩
  · have hword {a : BitVec 6} {w : Word16} (h : wordAt a ≠ .state) (hw : State.reset.readWord a = w) :=
      State.readWord_atReset cause straps q h hw
    refine ⟨hword (by decide) (by decide), State.stateWord_atReset cause straps q, hword (by decide) (by decide),
      hword (by decide) (by decide), hword (by decide) (by decide), hword (by decide) (by decide),
      hword (by decide) (by decide), hword (by decide) (by decide), hword (by decide) (by decide),
      hword (by decide) (by decide), hword (by decide) (by decide), hword (by decide) (by decide),
      hword (by decide) (by decide), hword (by decide) (by decide), fun i => hword ?_ ?_, fun v => hword ?_ ?_,
      fun v => hword ?_ ?_, hword (by decide) (by decide), fun b => hword ?_ ?_, fun v => hword ?_ ?_,
      fun a ha => hword ?_ ?_⟩
    · revert i; decide
    · revert i; decide
    · revert v; decide
    · revert v; decide
    · revert v; decide
    · revert v; decide
    · revert b; decide
    · revert b; decide
    · revert v; decide
    · revert v; decide
    · revert a; decide
    · revert a; decide
  · rintro cause straps q t rfl
    refine ⟨⟨rfl, rfl, rfl, rfl, rfl, rfl, rfl⟩, ⟨rfl, rfl, rfl⟩, ⟨rfl, rfl, fun n => ?_⟩, ⟨rfl, rfl, rfl, rfl⟩,
      ⟨rfl, rfl, fun k => ?_, rfl, rfl, rfl, rfl⟩, fun v => ?_, fun v => ?_, ⟨rfl, rfl, rfl, rfl, rfl, rfl, rfl, rfl, rfl⟩,
      fun p => ?_, ⟨rfl, fun b => ⟨?_, ?_⟩⟩, rfl, rfl, rfl, rfl, State.attentionLow_of_none rfl⟩
    · exact HistoryMemory.read_of_fill_zero _ n rfl
    · exact Vector.getElem_replicate k.isLt
    · exact congrArg Voice.plan (State.reset_voices v)
    · exact congrArg Voice.eng (State.reset_voices v)
    · exact Vector.getElem_replicate p.isLt
    · exact congrArg Bus.clipState (Vector.getElem_replicate b.isLt)
    · exact Vector.getElem_replicate b.isLt

/-! ## Releases and INIT -/

/-- Settles O3: by which of the two resets still holds the part. -/
theorem resetReleaseEntersInit : Obligations.ResetReleaseEntersInit := by
  refine ⟨⟨fun straps s hpin => ⟨?_, rfl, rfl, rfl, rfl⟩, fun straps s hpin => ?_⟩,
    ⟨fun straps s hpower => ?_, fun straps s hpower => ?_⟩, fun s hrel hpart => ?_⟩
  · rw [exec, execPowerOnReset, State.powerOn, State.powerOnRelease, hpin]
    rfl
  · refine ⟨s.holdReset true false true, ?_, rfl, rfl, rfl, rfl, rfl, rfl, rfl⟩
    rw [exec, execPowerOnReset, State.powerOn, State.powerOnRelease, if_pos hpin]
  · rw [exec, execPinReset, State.pinRelease, hpower]
    rfl
  · refine ⟨s.holdReset false true true, ?_, rfl, rfl, rfl, rfl, rfl, rfl, rfl⟩
    rw [exec, execPinReset, State.pinRelease, if_pos hpower]
  · rw [exec, execInitCompletion, whenReleased_of_released _ _ hrel, State.initDone, if_pos hpart, Receiver.await_eq]
    rfl

/-- R167: a write to the RESET word outside INIT. -/
theorem State.writeData_reset {s : State} (hpart : s.sc.part ≠ .init) (data : Word16) :
    s.writeData 0x3F data = s.endTransaction.wordReset := if_neg hpart

/-- R159: in INIT every write is ignored. -/
theorem State.writeData_init {s : State} (hpart : s.sc.part = .init) (addr : BitVec 6) (data : Word16) :
    s.writeData addr data = s.endTransaction := if_pos hpart

/-- Settles O4: a RESET write is the word reset outside INIT and nothing in it. -/
theorem wordResetKeepsStraps : Obligations.WordResetKeepsStraps := by
  refine ⟨fun data s hrel hpart => ?_, fun data s hrel hpart => ?_⟩
  · rw [exec, execReset, whenReleased_of_released _ _ hrel, State.writeData_reset hpart]
    rfl
  · rw [exec, execReset, whenReleased_of_released _ _ hrel, State.writeData_init hpart]
    rfl

/-! ## Held resets -/

/-- R157: while a reset is held, a command that is no reset of the supplies or of RSTN does nothing. -/
theorem exec_of_held {c : Instr} {s : State} (hheld : s.sc.resetHeld = true) (hpower : ∀ phase, c ≠ .powerOnReset phase)
    (hpin : ∀ straps, c ≠ .pinReset straps) (hassert : c ≠ .pinResetAsserted) : exec c s = .next s := by
  cases c with (rw [exec])
  | powerOnReset phase => exact absurd rfl (hpower phase)
  | pinReset straps => exact absurd rfl (hpin straps)
  | pinResetAsserted => exact absurd rfl hassert
  | _ => exact whenReleased_of_held _ s hheld

/-- Settles O5: the held state by evaluation, and every other command by the guard all of them share. -/
theorem heldResetTakesNothing : Obligations.HeldResetTakesNothing := by
  refine ⟨fun s => ⟨s.assertPinReset, rfl, rfl, rfl, rfl, rfl, rfl, State.attentionLow_of_none rfl, rfl,
    rfl, rfl, rfl, rfl, rfl, rfl, State.reset_voices, rfl, fun p => ?_, rfl⟩, fun c s hheld hpower hpin hassert => exec_of_held hheld hpower hpin hassert, fun s t ht => ?_⟩
  · exact Vector.getElem_replicate p.isLt
  · rw [exec, execPinResetAsserted] at ht
    cases ht
    exact ⟨rfl, rfl, rfl⟩

end Sys2Proof.Machine
end

section
/-! PROOFS. The causes a change raises, and the ageing of the whole Peer Table at a hop, given whole (R50, R122, R123, R169, R170). -/

namespace Sys2Proof.Machine

/-! ## Causes raised together -/

/-- R158, R170: what a capture in progress still clears once the causes `raised` are raised again; CONTEXT among them is a context
change (R51). -/
def Capture.afterRaise (raised : BitVec 7) : Capture → Capture
  | .attn k => .attn (k &&& ~~~raised)
  | .context k => .context (k && !raised.getLsbD 4)

/-- R169: the causes `raised` become pending. -/
def StateController.raising (raised : BitVec 7) (c : StateController) : StateController :=
  { c with causes := c.causes ||| raised, capture := c.capture.map (Capture.afterRaise raised) }

theorem Capture.afterRaise_zero (c : Capture) : c.afterRaise 0 = c := by
  cases c with
  | attn k => exact congrArg Capture.attn (BitVec.and_allOnes)
  | context k => exact congrArg Capture.context (Bool.and_true k)

theorem Capture.afterRaise_afterRaise (a b : BitVec 7) (c : Capture) :
    (c.afterRaise a).afterRaise b = c.afterRaise (a ||| b) := by
  cases c with
  | attn k => simp only [Capture.afterRaise, BitVec.not_or, BitVec.and_assoc]
  | context k => simp [Capture.afterRaise, Bool.and_assoc]

theorem StateController.raising_zero (c : StateController) : c.raising 0 = c := by
  have hcapture : c.capture.map (Capture.afterRaise 0) = c.capture := by
    cases c.capture with
    | none => rfl
    | some k => exact congrArg some k.afterRaise_zero
  have hcauses : c.causes ||| 0 = c.causes := BitVec.or_zero
  rw [StateController.raising, hcapture, hcauses]

theorem StateController.raising_raising (a b : BitVec 7) (c : StateController) :
    (c.raising a).raising b = c.raising (a ||| b) := by
  have hcapture : (c.capture.map (Capture.afterRaise a)).map (Capture.afterRaise b)
      = c.capture.map (Capture.afterRaise (a ||| b)) := by
    rw [Option.map_map]
    exact Option.map_congr fun k _ => k.afterRaise_afterRaise a b
  rw [StateController.raising, StateController.raising, StateController.raising, ← hcapture, BitVec.or_assoc]

/-- R169: a cause that no capture but that of ATTN has to do with. -/
theorem State.raise_eq_raising {c : Cause} (h : c.bit.getLsbD 4 = false) (s : State) :
    s.raise c = { s with sc := s.sc.raising c.bit } := by
  have hmap : Capture.keepRaised c = Capture.afterRaise c.bit := by
    funext k
    cases k with
    | attn => rfl
    | context => simp only [Capture.keepRaised, Capture.afterRaise, h, Bool.not_false, Bool.and_true]
  rw [State.raise, StateController.raising, hmap]

theorem State.raise_peer (s : State) : s.raise .peer = { s with sc := s.sc.raising 0x08 } :=
  s.raise_eq_raising (c := .peer) (by decide)

/-- R51, R89: a context change between hops, but for its KEY. -/
theorem State.noteContextChange_eq (s : State) : s.noteContextChange = State.clearFreeCounts { s with
    cu := { s.cu with changed := true }, sc := s.sc.raising 0x10 } := by
  have hmap : Capture.keepRaised .context ∘ Capture.keepChanged = Capture.afterRaise 0x10 := by
    funext k
    cases k with
    | attn => rfl
    | context => simp [Capture.keepRaised, Capture.keepChanged, Capture.afterRaise]
  rw [State.noteContextChange, State.raise, StateController.raising, ← hmap, ← Option.map_map]
  rfl

/-! ## The ageing of the Peer Table -/

/-- R50: a pin given up outside AUTO. -/
theorem State.releasePin_eq {s : State} (h : s.cu.mode ≠ .auto) : s.releasePin = { s with
    cu := { s.cu with mode := .auto, openDecision := true, changed := true }
    sc := s.sc.raising 0x10
    voices := s.clearFreeCounts.voices
    link := { s.link.offer .key with keyCount := 0 } } := by
  rw [State.releasePin, State.setContext]
  dsimp only
  rw [if_neg fun heq => h heq.2.symm, State.contextChange, State.noteContextChange_eq]
  rfl

/-- R122, R123: a record after the ageing of the hop. -/
def State.agedPeer (s : State) (p : Station) : Option PeerRecord :=
  if s.peerExpires p then none else s.peers[p].map (·.older s.cfg.refresh)

/-- R50: the ageing of the given stations removes the record of the pinning one. -/
def State.pinExpiresIn (s : State) (ps : List Station) : Bool :=
  ps.any fun p => decide (s.cu.mode = .pinnedPeer p) && s.peerExpires p

/-- R50, R122, R123: what an ageing leaves: the table `peers`, PEER raised if a record is `gone`, and the pin given up if it is
`released`. -/
def State.agedAs (s : State) (peers : Vector (Option PeerRecord) 8) (gone released : Bool) : State :=
  { s with
    peers := peers
    sc := s.sc.raising ((if gone then 0x08 else 0) ||| (if released then 0x10 else 0))
    cu := if released then { s.cu with mode := .auto, openDecision := true, changed := true } else s.cu
    voices := if released then s.clearFreeCounts.voices else s.voices
    link := if released then { s.link.offer .key with keyCount := 0 } else s.link }

theorem State.agedAs_same (s : State) : s.agedAs s.peers false false = s := by
  have hsc : s.sc.raising ((if false then 0x08 else 0) ||| (if false then 0x10 else 0)) = s.sc := s.sc.raising_zero
  rw [State.agedAs, hsc]
  rfl

theorem raised_or (g g' r r' : Bool) :
    ((if g then (0x08 : BitVec 7) else 0) ||| (if r then 0x10 else 0)) ||| ((if g' then 0x08 else 0) ||| (if r' then 0x10 else 0))
      = (if g || g' then 0x08 else 0) ||| (if r || r' then 0x10 else 0) := by
  revert g g' r r'
  decide

/-- One ageing after another; a pin is given up once. -/
theorem State.agedAs_agedAs (s : State) (a b : Vector (Option PeerRecord) 8) (g g' r r' : Bool) (h : r = true → r' = false) :
    (s.agedAs a g r).agedAs b g' r' = s.agedAs b (g || g') (r || r') := by
  have hsc : (s.agedAs a g r).sc.raising ((if g' then 0x08 else 0) ||| (if r' then 0x10 else 0))
      = s.sc.raising ((if g || g' then 0x08 else 0) ||| (if r || r' then 0x10 else 0)) := by
    rw [← raised_or]
    exact s.sc.raising_raising _ _
  rw [State.agedAs, hsc, State.agedAs, State.agedAs]
  cases r with
  | false => rfl
  | true =>
    rw [h rfl]
    rfl

/-- R122, R123, R50: the ageing of one station's record. -/
theorem State.agePeer_eq_agedAs (s : State) (p : Station) : s.agePeer p =
    s.agedAs (s.peers.set p (s.agedPeer p)) (s.peerExpires p) (s.pinExpiresIn [p]) := by
  have hin : s.pinExpiresIn [p] = (decide (s.cu.mode = .pinnedPeer p) && s.peerExpires p) := Bool.or_false _
  rw [State.agePeer_eq, State.agedPeer, hin]
  cases hexpires : s.peerExpires p with
  | false =>
    have hsc : s.sc.raising ((if false then 0x08 else 0) ||| (if false then 0x10 else 0)) = s.sc := s.sc.raising_zero
    rw [Bool.and_false, State.agedAs, hsc]
    rfl
  | true =>
    rw [Bool.and_true, if_pos rfl, if_pos rfl, State.removePeer, State.raise_peer]
    by_cases hpin : s.cu.mode = .pinnedPeer p
    · have hmode : s.cu.mode ≠ .auto := by rw [hpin]; simp
      rw [decide_eq_true hpin]
      have hsc : (s.sc.raising 0x08).raising 0x10
          = s.sc.raising ((if true then 0x08 else 0) ||| (if true then 0x10 else 0)) := s.sc.raising_raising _ _
      refine (if_pos hpin).trans
        ((State.releasePin_eq (s := { s.setPeer p none with sc := s.sc.raising 0x08 }) hmode).trans ?_)
      rw [State.agedAs, ← hsc]
      rfl
    · rw [decide_eq_false hpin]
      refine (if_neg hpin).trans ?_
      rfl

/-- The table with the records of the given stations aged. -/
def State.agedTable (s : State) (ps : List Station) : Vector (Option PeerRecord) 8 :=
  Vector.ofFn fun p => if p ∈ ps then s.agedPeer p else s.peers[p]

theorem State.peerExpires_congr {s t : State} {p : Station} (hcfg : t.cfg = s.cfg) (hp : t.peers[p] = s.peers[p]) :
    t.peerExpires p = s.peerExpires p := by rw [State.peerExpires, State.peerExpires, hcfg, hp]

theorem State.agedPeer_congr {s t : State} {p : Station} (hcfg : t.cfg = s.cfg) (hp : t.peers[p] = s.peers[p]) :
    t.agedPeer p = s.agedPeer p := by
  rw [State.agedPeer, State.agedPeer, State.peerExpires_congr hcfg hp, hcfg, hp]

theorem any_congr {α : Type} {xs : List α} {f g : α → Bool} (h : ∀ x ∈ xs, f x = g x) : xs.any f = xs.any g := by
  induction xs with
  | nil => rfl
  | cons x xs ih =>
    rw [List.any_cons, List.any_cons, h x List.mem_cons_self, ih fun y hy => h y (List.mem_cons_of_mem x hy)]

/-- R122: the ageing of the given stations' records, one after another, is their ageing all at once. -/
theorem State.foldAgePeer_eq (ps : List Station) (hps : ps.Nodup) (s : State) :
    ps.foldl (fun t p => t.agePeer p) s = s.agedAs (s.agedTable ps) (ps.any s.peerExpires) (s.pinExpiresIn ps) := by
  induction ps generalizing s with
  | nil =>
    have htable : s.agedTable [] = s.peers := by
      refine Vector.ext fun i hi => ?_
      exact Vector.getElem_ofFn hi
    rw [htable]
    exact s.agedAs_same.symm
  | cons p ps ih =>
    obtain ⟨hp, hps⟩ := List.nodup_cons.1 hps
    rw [List.foldl_cons, s.agePeer_eq_agedAs p, ih hps]
    set t := s.agedAs (s.peers.set p (s.agedPeer p)) (s.peerExpires p) (s.pinExpiresIn [p]) with ht
    have hget (q : Station) (hq : q ≠ p) : t.peers[q] = s.peers[q] :=
      Vector.getElem_set_ne p.isLt q.isLt (Fin.val_ne_of_ne hq.symm)
    have hself : t.peers[p] = s.agedPeer p := Vector.getElem_set_self p.isLt
    have hof (q : Station) (hq : q ∈ ps) : t.peers[q] = s.peers[q] := hget q (ne_of_mem_of_not_mem hq hp)
    have htable : t.agedTable ps = s.agedTable (p :: ps) := by
      refine Vector.ext fun i hi => ?_
      rw [State.agedTable, State.agedTable, Vector.getElem_ofFn, Vector.getElem_ofFn]
      by_cases hq : (⟨i, hi⟩ : Station) ∈ ps
      · rw [if_pos hq, if_pos (List.mem_cons_of_mem p hq)]
        exact State.agedPeer_congr rfl (hof _ hq)
      · rw [if_neg hq]
        by_cases heq : (⟨i, hi⟩ : Station) = p
        · rw [if_pos (heq ▸ List.mem_cons_self), heq]
          exact hself
        · rw [if_neg (List.not_mem_cons_of_ne_of_not_mem heq hq)]
          exact hget _ heq
    have hany : ps.any t.peerExpires = ps.any s.peerExpires :=
      any_congr fun q hq => State.peerExpires_congr rfl (hof q hq)
    have hpins : t.pinExpiresIn ps = (!s.pinExpiresIn [p] && s.pinExpiresIn ps) := by
      have hsame : t.pinExpiresIn ps = ps.any fun q => decide (t.cu.mode = .pinnedPeer q) && s.peerExpires q :=
        any_congr fun q hq => congrArg (decide (t.cu.mode = .pinnedPeer q) && ·) (State.peerExpires_congr rfl (hof q hq))
      rw [hsame]
      cases hpin : s.pinExpiresIn [p] with
      | false =>
        have hmode : t.cu = s.cu := by rw [ht, hpin]; rfl
        rw [hmode]
        rfl
      | true =>
        have hmode : t.cu.mode = .auto := by rw [ht, hpin]; rfl
        rw [hmode]
        exact List.any_eq_false.2 fun q _ => Bool.false_ne_true
    rw [htable, hany, hpins, ht, State.agedAs_agedAs _ _ _ _ _ _ _ fun h => by rw [h]; rfl]
    have hor : (s.pinExpiresIn [p] || (!s.pinExpiresIn [p] && s.pinExpiresIn ps)) = s.pinExpiresIn (p :: ps) := by
      have hcons : s.pinExpiresIn (p :: ps) = (s.pinExpiresIn [p] || s.pinExpiresIn ps) := by
        simp only [State.pinExpiresIn, List.any_cons, List.any_nil, Bool.or_false]
      rw [hcons]
      cases s.pinExpiresIn [p] <;> rfl
    rw [hor]
    rfl

theorem State.pinExpiresIn_all (s : State) : s.pinExpiresIn (List.finRange 8) = s.pinExpires := by
  rw [State.pinExpires, State.pinExpiresIn]
  cases hmode : s.cu.mode with
  | auto => exact List.any_eq_false.2 fun _ _ => Bool.false_ne_true
  | pinnedLocal => exact List.any_eq_false.2 fun _ _ => Bool.false_ne_true
  | pinnedPeer q =>
    show (List.finRange 8).any (fun p => decide (KeyMode.pinnedPeer q = .pinnedPeer p) && s.peerExpires p) = s.peerExpires q
    cases hq : s.peerExpires q with
    | true => exact List.any_eq_true.2 ⟨q, List.mem_finRange q, by simp [hq]⟩
    | false =>
      refine List.any_eq_false.2 fun p _ h => ?_
      rw [Bool.and_eq_true, decide_eq_true_iff] at h
      obtain ⟨hp, hexpires⟩ := h
      rw [← KeyMode.pinnedPeer.inj hp, hq] at hexpires
      exact absurd hexpires Bool.false_ne_true

/-- R122: the ageing of the table at a hop. -/
theorem State.ageing_eq (s : State) :
    s.ageing = s.agedAs (Vector.ofFn s.agedPeer) ((List.finRange 8).any s.peerExpires) s.pinExpires := by
  have htable : s.agedTable (List.finRange 8) = Vector.ofFn s.agedPeer :=
    congrArg Vector.ofFn (funext fun p => if_pos (List.mem_finRange p))
  rw [State.ageing, State.foldAgePeer_eq _ (List.nodup_finRange 8), htable, State.pinExpiresIn_all]

theorem State.ageing_peers (s : State) (p : Station) : s.ageing.peers[p] = s.agedPeer p := by
  rw [State.ageing_eq]
  exact Vector.getElem_ofFn p.isLt

/-- R123: a record past its limit. -/
theorem State.agedPeer_of_past {s : State} {p : Station} {r : PeerRecord} (hr : s.peers[p] = some r)
    (h : min (4 * s.cfg.refresh) 255 < r.silence + 1) : s.agedPeer p = none := by
  rw [State.agedPeer, State.peerExpires, hr]
  exact if_pos (decide_eq_true h)

theorem State.agedPeer_of_within {s : State} {p : Station} {r : PeerRecord} (hr : s.peers[p] = some r)
    (h : r.silence + 1 ≤ min (4 * s.cfg.refresh) 255) : s.agedPeer p = some (r.older s.cfg.refresh) := by
  rw [State.agedPeer, State.peerExpires, hr]
  exact if_neg fun hd => h.not_gt (of_decide_eq_true hd)

/-- R122: a claim of a record one hop older. -/
theorem PeerRecord.older_claim (refresh : Nat) (r : PeerRecord) (v : VoiceIx) :
    (r.older refresh).claims[v] = r.claims[v].bind fun c =>
      if 3 * refresh < min 255 (c.age + 1) then none else some { c with age := min 255 (c.age + 1) } := by
  refine (Vector.getElem_ofFn v.isLt).trans ?_
  cases r.claims[v] <;> rfl

/-- Settles O48: record by record, from what the ageing makes of one. -/
theorem ageingOfPeerTable : Obligations.AgeingOfPeerTable := by
  intro s
  refine ⟨fun p hp => ?_, fun p r hr h => ?_, fun p r hr h => ?_, ?_, fun p r hmode hr h => ?_⟩
  · rw [State.ageing_peers, State.agedPeer, hp]
    exact ite_self _
  · rw [State.ageing_peers, State.agedPeer_of_past hr h]
  · rw [State.ageing_peers, State.agedPeer_of_within hr h]
    exact ⟨_, rfl, rfl, rfl, rfl, rfl, r.older_claim s.cfg.refresh⟩
  · have hany : ((List.finRange 8).any fun p => match s.peers[p] with
        | some r => decide (min (4 * s.cfg.refresh) 255 < r.silence + 1)
        | none => false) = (List.finRange 8).any s.peerExpires := rfl
    rw [State.ageing_eq, State.agedAs, StateController.raising, BitVec.getLsbD_or]
    refine congrArg (s.sc.causes.getLsbD 3 || ·) (Eq.trans ?_ hany.symm)
    cases (List.finRange 8).any s.peerExpires <;> cases s.pinExpires <;> decide
  · have hpin : s.pinExpires = true := by
      rw [State.pinExpires, hmode]
      show s.peerExpires p = true
      rw [State.peerExpires, hr]
      exact decide_eq_true h
    rw [State.ageing_eq, hpin]
    exact ⟨rfl, rfl, rfl⟩

end Sys2Proof.Machine
end

section
/-! PROOFS. Receiving (R91, R92, R100, R101, R115 to R120): the frame read from the levels of the pair, what its end brings, the KEY frame
and the limits of ages; and the stuck monitor (R103). -/

namespace Sys2Proof.Machine

/-! ## The rows of the link that only raise or remove -/

/-- Settles O47: by the range of the report, the pinned flag and the mode. -/
theorem keyFrameAdoptsOrReleasesPin : Obligations.KeyFrameAdoptsOrReleasesPin := by
  intro p k s
  refine ⟨fun hout => ?_, fun hlocal => ?_, fun hpc hkind hpinned hmode => ?_, fun hpc hkind hpinned hmode => ?_,
    fun hpinned hmode => ?_⟩
  · exact dif_neg fun hin => by omega
  · rw [State.keyReceived]
    simp [hlocal]
  · rw [State.keyReceived, dif_pos ⟨Nat.le_of_lt_succ hpc, hkind⟩, if_pos hpinned]
    split
    case h_1 hlocal => exact absurd hlocal hmode
    case h_2 => rfl
  · rw [State.keyReceived, dif_pos ⟨hpc, hkind⟩, if_neg (by rw [hpinned]; exact Bool.false_ne_true), if_pos hmode]
    rfl
  · rw [State.keyReceived]
    simp [hpinned, hmode]

/-- Settles O49: each removal once its limit has passed. -/
theorem ageLimitsRemove : Obligations.AgeLimitsRemove := by
  intro p r s hrel hr
  refine ⟨fun v c hc hage => ?_, fun hsilence hmode => ?_, fun hsilence hmode => ?_⟩
  · rw [exec, execClaimAgeLimit, whenReleased_of_released _ _ hrel, State.claimAgeLimitDue, hr]
    simp only [hc, if_pos hage, PeerRecord.removeClaim, dif_pos v.isLt]
    rfl
  · rw [exec, execRecordLimit, whenReleased_of_released _ _ hrel, State.recordLimitDue, hr]
    exact congrArg Host.Outcome.next ((if_pos hsilence).trans (if_neg hmode))
  · rw [exec, execRecordLimit, whenReleased_of_released _ _ hrel, State.recordLimitDue, hr]
    exact congrArg Host.Outcome.next ((if_pos hsilence).trans (if_pos hmode))

/-- Settles O50: each move of the link state under its condition. -/
theorem stuckAndReturnToActive : Obligations.StuckAndReturnToActive := by
  intro s hrel
  refine ⟨fun hstate hslot => ?_, fun hstate => ?_⟩
  · rw [exec, execStuck, whenReleased_of_released _ _ hrel, State.stuckEntry, if_pos ⟨hstate, hslot⟩]
    rfl
  · rw [exec, execReturnToActive, whenReleased_of_released _ _ hrel, State.stuckReturn, if_pos hstate]

/-! ## The end of a taking -/

theorem State.takesFrames_iff (s : State) :
    s.takesFrames = true ↔ s.link.state ≠ .solo ∧ s.sc.part ≠ .init ∧ s.link.slot = none := by
  simp only [State.takesFrames, Bool.and_eq_true, decide_eq_true_eq, Option.isNone_iff_eq_none, and_assoc]

/-- R92, R100: an end of a taking named as a whole. -/
theorem exec_receiveFrame_end {s : State} {rx : Reception} (hrel : s.sc.resetHeld = false) (htakes : s.takesFrames = true)
    (hrx : ∀ bits, rx ≠ .levels bits) :
    exec (.receiveFrame rx) s = .next (State.takingEnds rx { s with link := s.link.endTaking rx }) := by
  rw [exec, execReceiveFrame, whenReleased_of_released _ _ hrel]
  refine congrArg Host.Outcome.next ((if_pos htakes).trans ?_)
  split
  · exact absurd rfl (hrx _)
  · rfl

theorem crcPasses_iff (f : LinkFrame) : f.crcPasses = true ↔ f.b5 = crcOf f.b0 f.b1 f.b2 f.b3 f.b4 := beq_iff_eq

/-- Settles O44: by the checks a receiver makes in turn: the end, the CRC, the kind, the station. -/
theorem receiverDiscardsAndFindsDuplicates : Obligations.ReceiverDiscardsAndFindsDuplicates := by
  intro f s hrel hpart hsolo hslot
  have htakes := s.takesFrames_iff.2 ⟨hsolo, hpart, hslot⟩
  have hcomplete := exec_receiveFrame_end (rx := .complete f) hrel htakes fun _ => Reception.noConfusion
  refine ⟨fun rx after hcase => ?_, fun hcrc hlow hhigh => ?_, fun hcrc hkind hstation => ?_⟩
  · rcases hcase with ⟨rfl, rfl⟩ | ⟨rfl, rfl⟩ | ⟨rfl, hcrc, rfl⟩
    · exact exec_receiveFrame_end hrel htakes fun _ => Reception.noConfusion
    · exact exec_receiveFrame_end hrel htakes fun _ => Reception.noConfusion
    · rw [hcomplete]
      have hfails : (!f.crcPasses) = true := by
        rw [Bool.not_eq_true', Bool.eq_false_iff]
        exact fun hpasses => hcrc ((crcPasses_iff f).1 hpasses)
      exact congrArg Host.Outcome.next (if_pos hfails)
  all_goals
    have hpasses : ¬(!f.crcPasses) = true := by
      rw [(crcPasses_iff f).2 hcrc]
      exact Bool.false_ne_true
    rw [hcomplete]
  · exact congrArg Host.Outcome.next ((if_neg hpasses).trans (if_pos ⟨hlow, hhigh⟩))
  · have hown : f.station = s.sc.station := Fin.ext hstation
    have hdup : State.takingEnds (.complete f) { s with link := s.link.endTaking (.complete f) }
        = State.duplicate { s with link := s.link.endTaking (.complete f) } :=
      (if_neg hpasses).trans ((if_neg fun h => absurd (h.1.trans hkind) (by decide)).trans ((if_pos hown).trans (if_pos hkind)))
    rw [hdup]
    refine ⟨fun hmuted => ?_, fun hmuted => ?_⟩
    · rw [State.duplicate]
      split
      case h_1 => rfl
      case h_2 => rfl
      case h_3 hne _ => exact absurd hmuted hne
    · rw [State.duplicate]
      split
      case h_1 heq => exact absurd heq hmuted
      case h_2 heq => exact absurd heq hsolo
      case h_3 => rfl

/-! ## Levels one by one -/

/-- R91: a stretch that holds a dominant level decides the run of what ends with it. -/
theorem recessiveRun_append_of_dominant (before levels : List Bool) (h : false ∈ levels) :
    recessiveRun (before ++ levels) = recessiveRun levels := by
  induction levels using List.reverseRecOn with
  | nil => exact absurd h List.not_mem_nil
  | append_singleton levels level ih =>
    rw [← List.append_assoc, recessiveRun_append_singleton, recessiveRun_append_singleton]
    cases level with
    | false => rfl
    | true =>
      have hmem : false ∈ levels := by simpa using h
      rw [ih hmem]

theorem recessiveRun_append_replicate (levels : List Bool) (n : Nat) :
    recessiveRun (levels ++ List.replicate n true) = recessiveRun levels + n := by
  induction n with
  | zero => rw [List.replicate_zero, List.append_nil, Nat.add_zero]
  | succ n ih =>
    rw [List.replicate_succ', ← List.append_assoc, recessiveRun_append_singleton, ih]
    rfl

/-- R91: the levels of a byte begin with a dominant one. -/
theorem false_mem_byteLevels (b : Byte) : false ∈ byteLevels b := List.mem_cons_self

/-- R92: the receiver in `s` reads a level that ends no taking. -/
theorem State.readLevel_of_none {s : State} {level : Bool} {l : LinkController} (h : s.link.readLevel level = (l, none)) :
    s.readLevel level = { s with link := l } := by
  rw [State.readLevel, h]

theorem State.readLevel_of_some {s : State} {level : Bool} {l : LinkController} {rx : Reception}
    (h : s.link.readLevel level = (l, some rx)) : s.readLevel level = State.takingEnds rx { s with link := l } := by
  rw [State.readLevel, h]

namespace LinkController

variable {l : LinkController}

theorem readLevel_waitIdle {n : Nat} (h : l.receiver = .waitIdle n) (level : Bool) : l.readLevel level =
    ({ l with receiver := if level then (if n + 1 < 12 then .waitIdle (n + 1) else .ready) else .waitIdle }, none) := by
  have hrun : (if idleRun ≤ n + 1 then Receiver.ready else .waitIdle (n + 1))
      = if n + 1 < 12 then .waitIdle (n + 1) else .ready := by
    rcases Nat.lt_or_ge (n + 1) 12 with hlt | hge
    · exact (if_neg hlt.not_ge).trans (if_pos hlt).symm
    · exact (if_pos hge).trans (if_neg hge.not_gt).symm
  simp only [readLevel, h, hrun]

theorem readLevel_ready (h : l.receiver = .ready) (level : Bool) :
    l.readLevel level = (if level then l else { l with receiver := .taking [false], rxBytes := [] }, none) := by
  simp only [readLevel, h]

theorem readLevel_stop (h : l.receiver = .taking) (level : Bool) : l.readLevel level = l.readStop level := by
  simp only [readLevel, h]

/-- R92: the gap after a stop bit, that bit the first of it. -/
theorem readLevel_gap {n : Nat} (h : l.receiver = .taking (List.replicate (n + 1) true)) (level : Bool) :
    l.readLevel level = l.readGap (List.replicate (n + 1) true) level := by
  have hdrop : (List.replicate (n + 1) true).dropWhile id = [] := by simp
  simp only [readLevel, h, List.replicate_succ]
  rw [List.replicate_succ] at hdrop
  rw [hdrop]

/-- R92: a bit of a byte begun after `n` levels of the gap. -/
theorem readLevel_bit {n : Nat} {bits : List Bool} (h : l.receiver = .taking (List.replicate n true ++ false :: bits))
    (level : Bool) :
    l.readLevel level = (l.readBit (List.replicate n true ++ false :: bits) bits level, none) := by
  have hdrop : (List.replicate n true ++ false :: bits).dropWhile id = false :: bits := by
    rw [List.dropWhile_append]
    simp
  have hne : List.replicate n true ++ false :: bits ≠ [] := by simp
  simp only [readLevel, h]
  split
  case h_1 heq => exact absurd heq hne
  case h_2 _ _ hd _ => rw [hdrop] at hd; cases hd
  case h_3 _ _ _ _ hd _ =>
    rw [hdrop] at hd
    cases hd
    rfl

end LinkController

/-- R91, R92: the eight bits of a byte, the first `bits` of them read, are read as that byte. -/
theorem State.readBits (s : State) (n : Nat) (bits rest : List Bool)
    (h : s.link.receiver = .taking (List.replicate n true ++ false :: bits)) (hlen : bits.length + rest.length = 8)
    (hrest : rest ≠ []) : rest.foldl (fun t level => t.readLevel level) s = { s with
      link := { s.link with receiver := .taking, rxBytes := s.link.rxBytes ++ [byteOfLevels (bits ++ rest)] } } := by
  induction rest generalizing s bits with
  | nil => exact absurd rfl hrest
  | cons level rest ih =>
    rw [List.length_cons] at hlen
    rw [List.foldl_cons, State.readLevel_of_none (LinkController.readLevel_bit h level), LinkController.readBit]
    cases rest with
    | nil =>
      rw [if_neg (by rw [List.length_nil] at hlen; omega)]
      rfl
    | cons next rest =>
      rw [List.length_cons] at hlen
      rw [if_pos (by omega)]
      have htaking : Receiver.taking (List.replicate n true ++ false :: bits ++ [level])
          = .taking (List.replicate n true ++ false :: (bits ++ [level])) := by simp
      refine (ih _ (bits ++ [level]) htaking ?_ (List.cons_ne_nil _ _)).trans ?_
      · rw [List.length_append, List.length_singleton, List.length_cons]
        omega
      · have hbits : bits ++ [level] ++ next :: rest = bits ++ level :: next :: rest := by simp
        rw [hbits]

/-- R91, R92: a byte read from the pair, its start bit after `n` levels of the gap, up to its stop bit. -/
theorem State.readByteBits (s : State) (b : Byte) (n : Nat) (h : s.link.receiver = .taking (List.replicate n true ++ [false])) :
    ([7, 6, 5, 4, 3, 2, 1, 0].map b.getLsbD).foldl (fun t level => t.readLevel level) s = { s with
      link := { s.link with receiver := .taking, rxBytes := s.link.rxBytes ++ [b] } } := by
  rw [State.readBits s n [] ([7, 6, 5, 4, 3, 2, 1, 0].map b.getLsbD) h rfl (List.cons_ne_nil _ _), List.nil_append,
    byteOfLevels_bits]

/-- R91, R92: a whole byte, where the start bit leaves `r` with `bytes` read before. -/
theorem State.readByte (s : State) (b : Byte) {l : LinkController} {n : Nat} (hstart : s.link.readLevel false = (l, none))
    (h : l.receiver = .taking (List.replicate n true ++ [false])) :
    (byteLevels b).foldl (fun t level => t.readLevel level) s
      = State.readLevel true { s with link := { l with receiver := .taking, rxBytes := l.rxBytes ++ [b] } } := by
  rw [byteLevels, List.cons_append, List.foldl_cons, List.foldl_append, State.readLevel_of_none hstart,
    State.readByteBits { s with link := l } b n h]
  rfl

/-- R92: the gap of one stop bit before the next byte. -/
theorem LinkController.readLevel_next {l : LinkController} (h : l.receiver = .taking [true]) :
    l.readLevel false = ({ l with receiver := .taking [true, false] }, none) := by
  rw [LinkController.readLevel_gap (n := 0) h, LinkController.readGap]
  exact if_neg fun hc => absurd hc.1 Bool.false_ne_true

/-- R92: a byte of a frame that is not its last, read after another. -/
theorem State.readNextByte (s : State) (b : Byte) (bytes : List Byte) (h : s.link.receiver = .taking [true])
    (hbytes : s.link.rxBytes = bytes) (hmore : LinkFrame.ofBytes (bytes ++ [b]) = none) :
    (byteLevels b).foldl (fun t level => t.readLevel level) s
      = { s with link := { s.link with receiver := .taking [true], rxBytes := bytes ++ [b] } } := by
  rw [State.readByte s b (n := 1) (LinkController.readLevel_next h) rfl]
  refine (State.readLevel_of_none (l := { s.link with receiver := .taking [true], rxBytes := bytes ++ [b] }) ?_).trans rfl
  rw [LinkController.readLevel_stop rfl, LinkController.readStop, if_pos rfl]
  simp only [hbytes, hmore]

/-- R92: the last byte of a frame. -/
theorem State.readLastByte (s : State) (b : Byte) (bytes : List Byte) {f : LinkFrame} (h : s.link.receiver = .taking [true])
    (hbytes : s.link.rxBytes = bytes) (hlast : LinkFrame.ofBytes (bytes ++ [b]) = some f) :
    (byteLevels b).foldl (fun t level => t.readLevel level) s
      = State.takingEnds (.complete f) { s with link := s.link.endTaking (.complete f) } := by
  rw [State.readByte s b (n := 1) (LinkController.readLevel_next h) rfl]
  refine (State.readLevel_of_some (l := s.link.endTaking (.complete f)) (rx := .complete f) ?_).trans rfl
  rw [LinkController.readLevel_stop rfl, LinkController.readStop, if_pos rfl]
  simp only [hbytes, hlast]
  rfl

/-- R92: the first byte of a frame, read by a ready receiver. -/
theorem State.readFirstByte (s : State) (b : Byte) (h : s.link.receiver = .ready) :
    (byteLevels b).foldl (fun t level => t.readLevel level) s
      = { s with link := { s.link with receiver := .taking [true], rxBytes := [b] } } := by
  rw [State.readByte s b (n := 0) (LinkController.readLevel_ready h false) rfl]
  refine (State.readLevel_of_none (l := { s.link with receiver := .taking [true], rxBytes := [b] }) ?_).trans rfl
  rw [LinkController.readLevel_stop rfl, LinkController.readStop, if_pos rfl]
  rfl

/-- R91, R92: the 60 levels of a frame, read by a ready receiver. -/
theorem State.readFrame (s : State) (f : LinkFrame) (h : s.link.receiver = .ready) :
    f.levels.foldl (fun t level => t.readLevel level) s
      = State.takingEnds (.complete f) { s with link := s.link.endTaking (.complete f) } := by
  rw [LinkFrame.levels, LinkFrame.bytes]
  simp only [List.flatMap_cons, List.flatMap_nil, List.append_nil, List.foldl_append]
  rw [State.readFirstByte s f.b0 h, State.readNextByte _ f.b1 [f.b0] rfl rfl rfl,
    State.readNextByte _ f.b2 [f.b0, f.b1] rfl rfl rfl, State.readNextByte _ f.b3 [f.b0, f.b1, f.b2] rfl rfl rfl,
    State.readNextByte _ f.b4 [f.b0, f.b1, f.b2, f.b3] rfl rfl rfl,
    State.readLastByte (f := f) _ f.b5 [f.b0, f.b1, f.b2, f.b3, f.b4] rfl rfl rfl]
  rfl

/-! ## The wait for idle -/

/-- R91, R92: recessive levels read by a receiver that waits. -/
theorem State.readRecessive_waitIdle (s : State) (n k : Nat) (h : s.link.receiver = .waitIdle n) :
    (List.replicate (k + 1) true).foldl (fun t level => t.readLevel level) s = { s with
      link := { s.link with receiver := if n + (k + 1) < 12 then .waitIdle (n + (k + 1)) else .ready } } := by
  induction k generalizing s n with
  | zero => exact State.readLevel_of_none (LinkController.readLevel_waitIdle h true)
  | succ k ih =>
    rw [List.replicate_succ, List.foldl_cons, State.readLevel_of_none (LinkController.readLevel_waitIdle h true)]
    by_cases hlt : n + 1 < 12
    · simp only [if_pos hlt, if_true]
      rw [ih _ (n + 1) rfl, Nat.add_right_comm n 1, Nat.add_assoc n]
    · simp only [if_neg hlt, if_true]
      rw [State.readLevels_recessive _ _ rfl, if_neg (by omega)]

/-- R92: fewer levels than an idle pair needs leave a waiting receiver waiting. -/
theorem State.readLevels_waitIdle (s : State) (bits : List Bool) (n : Nat) (h : s.link.receiver = .waitIdle n)
    (hlen : n + bits.length < 12) :
    ∃ m, bits.foldl (fun t level => t.readLevel level) s
      = { s with link := { s.link with receiver := .waitIdle m } } := by
  induction bits generalizing s n with
  | nil =>
    refine ⟨n, ?_⟩
    rw [← h]
    rfl
  | cons level bits ih =>
    rw [List.length_cons] at hlen
    rw [List.foldl_cons, State.readLevel_of_none (LinkController.readLevel_waitIdle h level)]
    cases level with
    | false => exact ih _ 0 rfl (by omega)
    | true =>
      simp only [if_true, if_pos (show n + 1 < 12 by omega)]
      exact ih _ (n + 1) rfl (by omega)

/-- R92: a receiver that waits for idle takes nothing of bytes that follow one another. -/
theorem State.readBytes_waitIdle (s : State) (bytes : List Byte) (n : Nat) (h : s.link.receiver = .waitIdle n) :
    ∃ m, (bytes.flatMap byteLevels).foldl (fun t level => t.readLevel level) s
      = { s with link := { s.link with receiver := .waitIdle m } } := by
  induction bytes generalizing s n with
  | nil =>
    refine ⟨n, ?_⟩
    rw [← h]
    rfl
  | cons b bytes ih =>
    rw [List.flatMap_cons, List.foldl_append, byteLevels, List.cons_append, List.foldl_cons,
      State.readLevel_of_none (LinkController.readLevel_waitIdle h false)]
    obtain ⟨k, hk⟩ := State.readLevels_waitIdle { s with link := { s.link with receiver := .waitIdle } }
      ([7, 6, 5, 4, 3, 2, 1, 0].map b.getLsbD ++ [true]) 0 rfl (by simp)
    have hfirst : (if false = true then (if n + 1 < 12 then Receiver.waitIdle (n + 1) else .ready) else .waitIdle)
        = .waitIdle := if_neg Bool.false_ne_true
    rw [hfirst, hk]
    exact ih _ k rfl

/-! ## Levels in parts -/

theorem State.ReceivesAs.takesFrames {s t : State} (h : s.ReceivesAs t) : t.takesFrames = s.takesFrames := by
  rw [Bool.eq_iff_iff, State.takesFrames_iff, State.takesFrames_iff, h.part, h.slot, Ne, Ne, h.solo]

theorem State.ReceivesAs.readLevels {s : State} (bits : List Bool) :
    s.ReceivesAs (bits.foldl (fun t level => t.readLevel level) s) :=
  List.foldlRecOn (motive := fun t => s.ReceivesAs t) _ _ .rfl fun _ ht level _ => ht.trans (.readLevel level)

theorem State.receiveFrame_levels_of_takes {s : State} (h : s.takesFrames = true) (bits : List Bool) :
    s.receiveFrame (.levels bits) = bits.foldl (fun t level => t.readLevel level) s := if_pos h

theorem State.receiveFrame_levels_of_not {s : State} (h : s.takesFrames = false) (bits : List Bool) :
    s.receiveFrame (.levels bits) = if s.link.state = .solo then s else { s with link := s.link.follow bits } :=
  if_neg (by rw [h]; exact Bool.false_ne_true)

/-- R91, R92: levels may come in parts. -/
theorem State.receiveFrame_levels_append (s : State) (a b : List Bool) :
    s.receiveFrame (.levels (a ++ b)) = (s.receiveFrame (.levels a)).receiveFrame (.levels b) := by
  cases htakes : s.takesFrames with
  | true =>
    have hafter := (State.ReceivesAs.readLevels (s := s) a).takesFrames.trans htakes
    rw [State.receiveFrame_levels_of_takes htakes, State.receiveFrame_levels_of_takes htakes,
      State.receiveFrame_levels_of_takes hafter, List.foldl_append]
  | false =>
    rw [State.receiveFrame_levels_of_not htakes, State.receiveFrame_levels_of_not htakes]
    by_cases hsolo : s.link.state = .solo
    · rw [if_pos hsolo, if_pos hsolo, State.receiveFrame_levels_of_not htakes, if_pos hsolo]
    · have hfollow : State.takesFrames { s with link := s.link.follow a } = false := htakes
      rw [if_neg hsolo, if_neg hsolo, State.receiveFrame_levels_of_not hfollow, if_neg (by exact hsolo),
        LinkController.follow_append]

theorem State.receiveFrame_levels_held (s : State) (bits : List Bool) :
    (s.receiveFrame (.levels bits)).sc.resetHeld = s.sc.resetHeld := by
  cases htakes : s.takesFrames with
  | true =>
    rw [State.receiveFrame_levels_of_takes htakes]
    exact (State.ReceivesAs.readLevels bits).held
  | false =>
    rw [State.receiveFrame_levels_of_not htakes]
    split <;> rfl

/-- R91: the levels of a frame, place by place. -/
theorem levels_spec (f : LinkFrame) (i : Fin 6) (j : Fin 8) : f.levels.length = 60
    ∧ f.levels[10 * i.val]? = some false ∧ f.levels[10 * i.val + 9]? = some true
    ∧ f.levels[10 * i.val + 1 + j.val]? = ([f.b0, f.b1, f.b2, f.b3, f.b4, f.b5][i]?).map (·.getLsbD (7 - j.val)) := by
  refine ⟨rfl, ?_, ?_, ?_⟩
  · fin_cases i <;> rfl
  · fin_cases i <;> rfl
  · fin_cases i <;> fin_cases j <;> rfl

/-! ## Good frames -/

/-- R100: a frame of a kind with a rule, from another station, with its CRC. -/
theorem exec_receiveFrame_good {s : State} {f : LinkFrame} (hrel : s.sc.resetHeld = false) (htakes : s.takesFrames = true)
    (hcrc : f.b5 = crcOf f.b0 f.b1 f.b2 f.b3 f.b4) (hkind : f.kind ≤ 4) (hstation : f.station ≠ s.sc.station) :
    exec (.receiveFrame (.complete f)) s
      = .next (State.goodFrame f { s with link := s.link.endTaking (.complete f) }) := by
  rw [exec_receiveFrame_end hrel htakes fun _ => Reception.noConfusion]
  have hpasses : ¬(!f.crcPasses) = true := by
    rw [(crcPasses_iff f).2 hcrc]
    exact Bool.false_ne_true
  exact congrArg Host.Outcome.next
    ((if_neg hpasses).trans ((if_neg fun h => absurd (h.1.trans hkind) (by decide)).trans (if_neg hstation)))

theorem State.applyFrame_of_some {s : State} {p : Station} {f : LinkFrame} {r : PeerRecord} (hr : s.peers[p] = some r) :
    s.applyFrame p f = s.setPeer p (some { r.apply f with silence := 0 }) := by rw [State.applyFrame, hr]

/-- R116: the sender's record takes the frame, its silence 0. -/
theorem State.goodFrame_of_some {s : State} {f : LinkFrame} {r : PeerRecord} (hr : s.peers[f.station] = some r) :
    s.goodFrame f = if f.kind = 3 then
        State.keyReceived f.station f.keyPart { s with peers := s.peers.set f.station (some { r.apply f with silence := 0 }) }
      else { s with peers := s.peers.set f.station (some { r.apply f with silence := 0 }) } := by
  have happlied : (s.findOrCreate f.station).applyFrame f.station f
      = { s with peers := s.peers.set f.station (some { r.apply f with silence := 0 }) } := by
    have hcreated : s.findOrCreate f.station = s := by rw [State.findOrCreate, hr]
    rw [hcreated]
    exact State.applyFrame_of_some hr
  rw [State.goodFrame, happlied]

theorem PeerRecord.silence_apply (f : LinkFrame) (r : PeerRecord) : (r.apply f).silence = r.silence := by
  unfold PeerRecord.apply
  split
  · rw [PeerRecord.removeClaim_eq]
  · rw [PeerRecord.insertClaim_eq]
  · rfl
  · rfl
  · rw [PeerRecord.applyHello]
    split <;> rfl
  · rfl

/-- R115, R116: the sender's record is created first. -/
theorem State.goodFrame_of_none {s : State} {f : LinkFrame} (hr : s.peers[f.station] = none) :
    s.goodFrame f = if f.kind = 3 then
        State.keyReceived f.station f.keyPart
          (State.raise .peer { s with peers := s.peers.set f.station (some (PeerRecord.empty.apply f)) })
      else State.raise .peer { s with peers := s.peers.set f.station (some (PeerRecord.empty.apply f)) } := by
  have hempty : { PeerRecord.empty.apply f with silence := 0 } = PeerRecord.empty.apply f := by
    have hsilence : (PeerRecord.empty.apply f).silence = 0 := PeerRecord.silence_apply f _
    rw [← hsilence]
  have happlied : (s.findOrCreate f.station).applyFrame f.station f
      = State.raise .peer { s with peers := s.peers.set f.station (some (PeerRecord.empty.apply f)) } := by
    have hcreated : s.findOrCreate f.station = (s.setPeer f.station (some PeerRecord.empty)).raise .peer := by
      rw [State.findOrCreate, hr]
    have hget : ((s.setPeer f.station (some PeerRecord.empty)).raise .peer).peers[f.station] = some PeerRecord.empty :=
      Vector.getElem_set_self f.station.isLt
    have hagain : (s.peers.set f.station (some PeerRecord.empty)).set f.station (some (PeerRecord.empty.apply f))
        = s.peers.set f.station (some (PeerRecord.empty.apply f)) := by simp
    rw [hcreated]
    refine (State.applyFrame_of_some hget).trans ?_
    refine (congrArg (fun r => State.setPeer f.station (some r)
      ((s.setPeer f.station (some PeerRecord.empty)).raise .peer)) hempty).trans ?_
    exact congrArg (fun ps => State.raise .peer { s with peers := ps }) hagain
  rw [State.goodFrame, happlied]

/-! ## The obligation -/

theorem exec_levels {s : State} (hrel : s.sc.resetHeld = false) (bits : List Bool) :
    exec (.receiveFrame (.levels bits)) s = .next (s.receiveFrame (.levels bits)) := by
  rw [exec, execReceiveFrame, whenReleased_of_released _ _ hrel]

/-- R92: one level read where frames are taken and the level ends no taking. -/
theorem exec_level_of_none {s : State} {level : Bool} {l : LinkController} (hrel : s.sc.resetHeld = false)
    (htakes : s.takesFrames = true) (h : s.link.readLevel level = (l, none)) :
    exec (.receiveFrame (.levels [level])) s = .next { s with link := l } := by
  rw [exec_levels hrel, State.receiveFrame_levels_of_takes htakes]
  exact congrArg Host.Outcome.next (State.readLevel_of_none h)

/-- R92: one level that ends a taking, as that end named as a whole. -/
theorem exec_level_of_end {s : State} {level : Bool} {rx : Reception} (hrel : s.sc.resetHeld = false)
    (htakes : s.takesFrames = true) (hrx : ∀ bits, rx ≠ .levels bits)
    (h : s.link.readLevel level = (s.link.endTaking rx, some rx)) :
    exec (.receiveFrame (.levels [level])) s = exec (.receiveFrame rx) s := by
  rw [exec_levels hrel, State.receiveFrame_levels_of_takes htakes, exec_receiveFrame_end hrel htakes hrx]
  exact congrArg Host.Outcome.next (State.readLevel_of_some h)

/-- R92: the run of recessive bits in the gap after the bytes read. -/
theorem recessiveRun_gap {bytes : List Byte} {last : Byte} (h : bytes.getLast? = some last) (k : Nat) :
    recessiveRun (bytes.flatMap byteLevels ++ (List.replicate (k + 1) true).tail) = recessiveRun (byteLevels last) + k := by
  obtain ⟨before, rfl⟩ : ∃ before, bytes = before ++ [last] := ⟨_, (List.dropLast_append_getLast? last h).symm⟩
  rw [List.flatMap_append, List.flatMap_singleton, List.append_assoc, recessiveRun_append_of_dominant]
  · exact recessiveRun_append_replicate _ k
  · exact List.mem_append_left _ (false_mem_byteLevels last)

theorem State.takesFrames_of_follows {s : State} (h : s.sc.part = .init ∨ s.link.slot ≠ none) : s.takesFrames = false := by
  refine Bool.eq_false_of_not_eq_true fun htakes => ?_
  obtain ⟨-, hpart, hslot⟩ := s.takesFrames_iff.1 htakes
  exact h.elim hpart fun hne => hne hslot

/-- R91, R92: the 12 recessive levels of an idle pair. -/
theorem State.readIdle_ready (s : State) (h : s.link.receiver = .ready ∨ ∃ n, s.link.receiver = .waitIdle n) :
    (List.replicate 12 true).foldl (fun t level => t.readLevel level) s
      = { s with link := { s.link with receiver := .ready } } := by
  rcases h with hready | ⟨n, hwait⟩
  · rw [State.readLevels_recessive 12 s hready, ← hready]
  · rw [State.readRecessive_waitIdle s n 11 hwait, if_neg (by omega)]

/-- Settles O46: the record of the sender, then the levels of a frame one after another. -/
theorem goodFrameReachesPeerTable : Obligations.GoodFrameReachesPeerTable := by
  refine ⟨fun f s hrel hpart hsolo hslot hcrc hkind hstation => ?_, levels_spec, fun before n => ⟨recessiveRun_replicate n, ?_⟩,
    fun a b s t hrel ht => ?_, fun level s hrel hsolo hfollows => ⟨fun n hwait => ?_, fun hready => ?_⟩,
    fun f s hrel hpart hsolo hslot => ⟨fun hwaits => ?_, fun hwait => ?_, fun hready => ⟨?_, ?_⟩, fun n hwait => ⟨?_, ?_⟩,
      fun hstop => ?_, fun k last hgap hlast => ⟨fun hshort => ?_, fun hidle => ?_⟩⟩⟩
  · have htakes := s.takesFrames_iff.2 ⟨hsolo, hpart, hslot⟩
    have hgood := exec_receiveFrame_good hrel htakes hcrc hkind hstation
    refine ⟨fun r hr hne => ?_, fun hr hne => ?_, fun r hr hkey => ?_, fun hr hkey => ?_⟩
    · rw [hgood, State.goodFrame_of_some (s := { s with link := s.link.endTaking (.complete f) }) hr, if_neg hne]
      rfl
    · rw [hgood, State.goodFrame_of_none (s := { s with link := s.link.endTaking (.complete f) }) hr, if_neg hne]
      rfl
    · rw [hgood, State.goodFrame_of_some (s := { s with link := s.link.endTaking (.complete f) }) hr, if_pos hkey]
      rfl
    · rw [hgood, State.goodFrame_of_none (s := { s with link := s.link.endTaking (.complete f) }) hr, if_pos hkey]
      rfl
  · have hdominant : false ∈ false :: List.replicate n true := List.mem_cons_self
    rw [recessiveRun_append_of_dominant before _ hdominant]
    exact (recessiveRun_append_replicate [false] n).trans (Nat.zero_add n)
  · rw [exec_levels hrel] at ht
    cases ht
    rw [exec_levels hrel, exec_levels ((State.receiveFrame_levels_held s a).trans hrel), State.receiveFrame_levels_append]
  · rw [exec_levels hrel, State.receiveFrame_levels_of_not (State.takesFrames_of_follows hfollows), if_neg hsolo,
      LinkController.follow, hwait]
    rfl
  · rw [exec_levels hrel, State.receiveFrame_levels_of_not (State.takesFrames_of_follows hfollows), if_neg hsolo,
      LinkController.follow, hready]
    rfl
  all_goals have htakes := s.takesFrames_iff.2 ⟨hsolo, hpart, hslot⟩
  · rw [exec_levels hrel, State.receiveFrame_levels_of_takes htakes, List.foldl_append, State.readIdle_ready s hwaits,
      State.readFrame _ f rfl, exec_receiveFrame_end hrel htakes fun _ => Reception.noConfusion]
    rfl
  · obtain ⟨n, hn⟩ := State.readBytes_waitIdle s f.bytes 0 hwait
    refine ⟨n, ?_⟩
    rw [exec_levels hrel, State.receiveFrame_levels_of_takes htakes]
    exact congrArg Host.Outcome.next hn
  · exact exec_level_of_none hrel htakes (LinkController.readLevel_ready hready true)
  · exact exec_level_of_none hrel htakes (LinkController.readLevel_ready hready false)
  · exact exec_level_of_none hrel htakes (LinkController.readLevel_waitIdle hwait true)
  · exact exec_level_of_none hrel htakes (LinkController.readLevel_waitIdle hwait false)
  · exact exec_level_of_end hrel htakes (fun _ => Reception.noConfusion) (LinkController.readLevel_stop hstop false)
  · refine exec_level_of_none hrel htakes ((LinkController.readLevel_gap hgap true).trans ?_)
    rw [LinkController.readGap, recessiveRun_gap hlast, if_neg fun h => h.2.not_gt hshort, ← List.replicate_succ']
  · refine exec_level_of_end hrel htakes (fun _ => Reception.noConfusion) ((LinkController.readLevel_gap hgap true).trans ?_)
    rw [LinkController.readGap, recessiveRun_gap hlast, if_pos ⟨rfl, hidle⟩]

end Sys2Proof.Machine
end

section
/-! PROOFS. The commands of 10.3 and the writes by access type and part state (R45 to R47, R129, R157 to R166, R171). -/

namespace Sys2Proof.Machine

/-! ## Taken and refused -/

/-- R166: a refusal ends a read in progress and raises REFUSED. -/
theorem State.refuse_endTransaction (s : State) :
    s.endTransaction.refuse = { s with sc := { s.sc with capture := none, causes := s.sc.causes ||| 0x40 } } := rfl

theorem State.commandWrite_taken {s : State} {c : Command} (h : c.takenIn s.sc.part = true) (arg : Byte) :
    s.commandWrite c arg = s.endTransaction.takeCommand c arg := by
  have hpart : s.sc.part ≠ .init := fun hi => by
    rw [hi] at h
    cases c <;> exact absurd h Bool.false_ne_true
  rw [State.commandWrite, if_neg hpart, if_pos h]

theorem State.commandWrite_refused {s : State} {c : Command} (hpart : s.sc.part ≠ .init) (h : c.takenIn s.sc.part = false)
    (arg : Byte) : s.commandWrite c arg = s.endTransaction.refuse := by
  rw [State.commandWrite, if_neg hpart, h]
  exact if_neg Bool.false_ne_true

/-- The part states in which the words and gains are written: none of them is INIT or CALIBRATE. -/
theorem PartState.ne_of_writes {p : PartState} (h : p = .setup ∨ p = .live ∨ p = .standby) : p ≠ .init ∧ p ≠ .calibrate := by
  rcases h with rfl | rfl | rfl <;> decide

theorem State.writeData_setup {s : State} (hpart : s.sc.part = .setup) {addr : BitVec 6} (h : (wordAt addr).access = .setup)
    (w : Word16) : s.writeData addr w = s.endTransaction.storeWord (wordAt addr) w := by
  rw [State.writeData, if_neg (by rw [hpart]; decide), h]
  exact if_pos hpart

theorem State.writeData_setup_refused {s : State} (hinit : s.sc.part ≠ .init) (hpart : s.sc.part ≠ .setup) {addr : BitVec 6}
    (h : (wordAt addr).access = .setup) (w : Word16) : s.writeData addr w = s.endTransaction.refuse := by
  rw [State.writeData, if_neg hinit, h]
  exact if_neg hpart

theorem State.writeData_live {s : State} (hinit : s.sc.part ≠ .init) (hpart : s.sc.part ≠ .calibrate) {addr : BitVec 6}
    (h : (wordAt addr).access = .live) (w : Word16) :
    s.writeData addr w = s.endTransaction.storeWord (wordAt addr) w := by
  rw [State.writeData, if_neg hinit, h]
  exact if_neg hpart

theorem State.writeData_live_refused {s : State} (hpart : s.sc.part = .calibrate) {addr : BitVec 6}
    (h : (wordAt addr).access = .live) (w : Word16) : s.writeData addr w = s.endTransaction.refuse := by
  rw [State.writeData, if_neg (by rw [hpart]; decide), h]
  exact if_pos hpart

/-- R159: a write to a word that takes none. -/
theorem State.writeData_ignored (s : State) {addr : BitVec 6}
    (h : (wordAt addr).access = .readOnly ∨ (wordAt addr).access = .readClear ∨ (wordAt addr).access = .unused)
    (w : Word16) : s.writeData addr w = s.endTransaction := by
  rw [State.writeData]
  rcases h with h | h | h <;> rw [h] <;> exact ite_self _

/-! ## The rows of the commands -/

/-- The row that a command of 10.3 has. -/
def Command.row : Command → Byte → Instr
  | .go => .go
  | .calibrateShort => .calibrateShort
  | .calibrateLong => .calibrateLong
  | .standby => .standby
  | .wake => .wake
  | .pin => .pin
  | .unpin => .unpin
  | .clear => .clear

theorem exec_command (c : Command) (arg : Byte) {s : State} (hrel : s.sc.resetHeld = false) :
    exec (c.row arg) s = .next (s.commandWrite c arg) := by
  cases c <;> exact whenReleased_of_released _ _ hrel

theorem exec_command_taken {c : Command} (arg : Byte) {s : State} (hrel : s.sc.resetHeld = false)
    (h : c.takenIn s.sc.part = true) : exec (c.row arg) s = .next (s.endTransaction.takeCommand c arg) := by
  rw [exec_command c arg hrel, State.commandWrite_taken h]

theorem exec_command_refused {c : Command} (arg : Byte) {s : State} (hrel : s.sc.resetHeld = false)
    (hpart : s.sc.part ≠ .init) (h : c.takenIn s.sc.part = false) :
    exec (c.row arg) s = .next s.endTransaction.refuse := by
  rw [exec_command c arg hrel, State.commandWrite_refused hpart h]

theorem exec_writeWord (addr : BitVec 6) (data : Word16) {s : State} (hrel : s.sc.resetHeld = false) :
    exec (.writeWord addr data) s = .next (s.writeData addr data) := whenReleased_of_released _ _ hrel

theorem exec_keycfg (data : Word16) {s : State} (hrel : s.sc.resetHeld = false) :
    exec (.keycfg data) s = .next (s.writeData 0x11 data) := whenReleased_of_released _ _ hrel

theorem exec_enable (data : Word16) {s : State} (hrel : s.sc.resetHeld = false) :
    exec (.enable data) s = .next (s.writeData 0x2B data) := whenReleased_of_released _ _ hrel

theorem exec_mute (m : Bool) {s : State} (hrel : s.sc.resetHeld = false) :
    exec (.mute m) s = .next (s.writeData 0x2B ((s.enableWord &&& 0xFEFF) ||| (if m then 0x0100 else 0))) := by
  rw [exec, execMute, whenReleased_of_released _ _ hrel]

theorem exec_attnMask (data : Word16) {s : State} (hrel : s.sc.resetHeld = false) :
    exec (.attnMask data) s = .next (s.writeData 0x03 data) := whenReleased_of_released _ _ hrel

theorem exec_unknownCode (code arg : Byte) {s : State} (hrel : s.sc.resetHeld = false) :
    exec (.unknownCode code arg) s = .next (s.codeWrite code arg) := whenReleased_of_released _ _ hrel

theorem knownCode_eq_isSome (code : Byte) : knownCode code = (commandOf code).isSome := by
  revert code
  decide

theorem State.codeWrite_of_unknown (s : State) {code : Byte} (h : knownCode code = false) (arg : Byte) :
    s.codeWrite code arg = if s.sc.part = .init then s.endTransaction else s.endTransaction.refuse := by
  rw [knownCode_eq_isSome, Option.isSome_eq_false_iff, Option.isNone_iff_eq_none] at h
  rw [State.codeWrite, h]

/-! ## The commands of 10.3 -/

/-- Settles O28: the measurement begun is either kept or abandoned at once. -/
theorem calibrateStartsMeasurement : Obligations.CalibrateStartsMeasurement := by
  intro arg s hrel hpart
  have hlong : exec (.calibrateLong arg) s = .next (s.endTransaction.takeCalibrate 8192) :=
    exec_command_taken (c := .calibrateLong) arg hrel (by rw [hpart]; rfl)
  have hshort : exec (.calibrateShort arg) s = .next (s.endTransaction.takeCalibrate 1024) :=
    exec_command_taken (c := .calibrateShort) arg hrel (by rw [hpart]; rfl)
  rw [hlong, hshort]
  refine ⟨fun hsync => ⟨congrArg _ (if_pos hsync), congrArg _ (if_pos hsync)⟩, fun hsync => ?_⟩
  have hlost : ¬s.endTransaction.ap.syncPresent = true := by
    rw [show s.endTransaction.ap.syncPresent = false from hsync]
    exact Bool.false_ne_true
  have hfrom : ({ s.sc with part := .setup, capture := none, causes := s.sc.causes ||| 0x20 } : StateController)
      = { s.sc with capture := none, causes := s.sc.causes ||| 0x20 } := by
    rw [← hpart]
  exact ⟨congrArg _ ((if_neg hlost).trans (congrArg (fun sc => { s with
    sc := sc, inp := { s.inp with measurement := none, calAborted := true } }) hfrom)),
    congrArg _ ((if_neg hlost).trans (if_neg hlost).symm)⟩

/-- R102, R110, R112: the offers of the first entry to LIVE, on an empty queue. -/
theorem LinkController.offer_hello_key {l : LinkController} (hstate : l.state = .active) (hempty : l.queue = []) :
    (l.offer (.hello true)).offer .key = { l with queue := [.hello true, .key], quietCount := 0 } := by
  have hhello : l.offer (.hello true) = { l with queue := [.hello true], quietCount := 0 } := by
    rw [LinkController.offer, hstate, hempty]
    rfl
  rw [hhello, LinkController.offer, hstate]
  rfl

/-- Settles O29: the first entry to LIVE is the one that sets the link going. -/
theorem goEntersLive : Obligations.GoEntersLive := by
  intro arg s hrel hpart hsync
  have hgo : exec (.go arg) s = .next s.endTransaction.enterLive :=
    (exec_command_taken (c := .go) arg hrel (by rw [hpart]; rfl)).trans (congrArg _ (if_pos hsync))
  rw [hgo]
  refine ⟨fun hfirst hlisten hempty => congrArg _ ?_, fun hstate => congrArg _ ?_⟩
  · have henter : s.endTransaction.enterLive
        = State.linkFirstLive { s with sc := { s.sc with part := .live, liveEntry := true, capture := none } } :=
      if_neg (by rw [show s.endTransaction.sc.liveEntry = false from hfirst]; exact Bool.false_ne_true)
    rw [henter, State.linkFirstLive, hlisten]
    exact congrArg (fun l => { s with
        sc := { s.sc with part := .live, liveEntry := true, capture := none }
        link := { l with keyCount := 0 } })
      (LinkController.offer_hello_key (l := { s.link with state := .active, stuckMonitor := .dominant }) rfl hempty)
  · rw [State.enterLive]
    split
    · rfl
    · rw [State.linkFirstLive]
      rcases hstate with h | h <;> rw [show s.endTransaction.link.state = _ from h] <;> rfl

theorem LinkController.foldl_offer_drop (p : VoiceIx → Bool) (vs : List VoiceIx) (l : LinkController) :
    vs.foldl (fun l v => l.offerSome (if p v then some (.drop v) else none)) l
      = (vs.filter p).foldl (fun l v => l.offer (.drop v)) l := by
  rw [List.foldl_filter]
  refine List.foldl_ext _ _ _ fun a v _ => ?_
  split <;> rfl

/-- R76: over all eight voices, the DROPs that their own events offer, in index order. -/
theorem State.foldPutVoice_eq (f : VoiceIx → Voice × Bool) (s : State) :
    (List.finRange 8).foldl (fun t v => t.putVoice v (f v)) s
      = { s with
          voices := Vector.ofFn fun w => (f w).1
          link := ((List.finRange 8).filter fun v => (f v).2).foldl (fun l v => l.offer (.drop v)) s.link } := by
  rw [State.foldPutVoice_spec, LinkController.foldl_offer_drop fun v => (f v).2]

/-- R135: the voices that fade at entry to STANDBY, with the DROPs they offer. -/
theorem State.fadeSounding_eq_dropping (s : State) : s.fadeSounding = { s with
    voices := Vector.ofFn fun v => s.voices[v].fadedIfSounding
    link := ((List.finRange 8).filter fun v => s.voices[v].eng.state.sounding).foldl
      (fun l v => l.offer (.drop v)) s.link } := by
  rw [State.fadeSounding, State.foldFadeEntry_eq s (List.nodup_finRange 8) s fun _ _ => rfl, State.foldPutVoice_eq]

/-- Settles O30: the voices that sound fade, and WAKE only moves the part state. -/
theorem standbyFadesAndWakeReturns : Obligations.StandbyFadesAndWakeReturns := by
  refine ⟨fun arg s hrel hpart => ?_, fun arg s hrel hpart hentry => ?_⟩
  · have hstandby : exec (.standby arg) s = .next s.endTransaction.takeStandby :=
      exec_command_taken (c := .standby) arg hrel (by rw [hpart]; rfl)
    rw [hstandby, State.takeStandby, State.fadeSounding_eq_dropping]
    rfl
  · have hwake : exec (.wake arg) s = .next s.endTransaction.returnToLive :=
      exec_command_taken (c := .wake) arg hrel (by rw [hpart]; rfl)
    have hlive : s.endTransaction.enterLive = { s with sc := { s.sc with part := .live, capture := none } } := by
      rw [State.enterLive, if_pos (show s.endTransaction.sc.liveEntry = true from hentry), ← hentry]
      rfl
    rw [hwake, State.returnToLive, hlive]
    rfl

/-- Settles O31, by the mode before UNPIN and the pitch class of PIN. -/
theorem pinAndUnpinSetMode : Obligations.PinAndUnpinSetMode := by
  intro arg s hrel hpart
  have hpin : exec (.pin arg) s = .next (s.endTransaction.takePin arg) :=
    exec_command_taken (c := .pin) arg hrel (by rcases hpart with h | h | h <;> rw [h] <;> rfl)
  have hunpin : exec (.unpin arg) s = .next s.endTransaction.takeUnpin :=
    exec_command_taken (c := .unpin) arg hrel (by rcases hpart with h | h | h <;> rw [h] <;> rfl)
  rw [hpin, hunpin]
  exact ⟨fun h => congrArg _ (dif_pos h), fun hmode => congrArg _ (if_neg hmode), fun hmode => congrArg _ (if_pos hmode)⟩

/-- Settles O32: CLEAR is the model's own record update. -/
theorem clearZeroesCountersAlone : Obligations.ClearZeroesCountersAlone := by
  refine ⟨fun arg s hrel hpart => ?_, fun arg s hrel hpart => ?_⟩
  · exact exec_command_refused (c := .clear) arg hrel (by rw [hpart]; decide) (by rw [hpart]; rfl)
  · exact exec_command_taken (c := .clear) arg hrel (by rcases hpart with h | h | h <;> rw [h] <;> rfl)

theorem Command.takenIn_setup {c : Command} (hc : c = .go ∨ c = .calibrateLong ∨ c = .calibrateShort) {p : PartState}
    (h : p ≠ .setup) : c.takenIn p = false := by
  cases p
  case setup => exact absurd rfl h
  all_goals rcases hc with rfl | rfl | rfl <;> rfl

theorem Command.takenIn_standby {p : PartState} (h : p ≠ .live) : Command.standby.takenIn p = false := by
  cases p <;> simp_all [Command.takenIn]

theorem Command.takenIn_wake {p : PartState} (h : p ≠ .standby) : Command.wake.takenIn p = false := by
  cases p <;> simp_all [Command.takenIn]

/-- Settles O33: each refusal of 10.3 by its row. -/
theorem refusalRaisesRefusedAlone : Obligations.RefusalRaisesRefusedAlone := by
  intro c s hrel hinit hc
  rw [← State.refuse_endTransaction]
  rcases hc with ⟨code, arg, rfl, hcode⟩ | ⟨arg, rfl, hgo⟩ | ⟨arg, hcal, hpart⟩ | ⟨arg, rfl, hpart⟩ | ⟨arg, rfl, hpart⟩
    | ⟨arg, rfl, hpin⟩ | ⟨arg, hcmd, hpart⟩ | ⟨data, rfl, hpart⟩ | ⟨data, m, hlive, hpart⟩ | ⟨addr, data, rfl, hacc, hpart⟩
    | ⟨addr, data, rfl, hacc, hpart⟩
  · rw [exec_unknownCode code arg hrel, State.codeWrite_of_unknown s hcode, if_neg hinit]
  · by_cases hpart : s.sc.part = .setup
    · have hlost : ¬s.endTransaction.ap.syncPresent = true := by
        rw [show s.endTransaction.ap.syncPresent = false from hgo.resolve_left (not_not_intro hpart)]
        exact Bool.false_ne_true
      exact (exec_command_taken (c := .go) arg hrel (by rw [hpart]; rfl)).trans (congrArg _ (if_neg hlost))
    · exact exec_command_refused (c := .go) arg hrel hinit (Command.takenIn_setup (.inl rfl) hpart)
  · rcases hcal with rfl | rfl
    · exact exec_command_refused (c := .calibrateLong) arg hrel hinit (Command.takenIn_setup (.inr (.inl rfl)) hpart)
    · exact exec_command_refused (c := .calibrateShort) arg hrel hinit (Command.takenIn_setup (.inr (.inr rfl)) hpart)
  · exact exec_command_refused (c := .standby) arg hrel hinit (Command.takenIn_standby hpart)
  · exact exec_command_refused (c := .wake) arg hrel hinit (Command.takenIn_wake hpart)
  · by_cases htaken : Command.pin.takenIn s.sc.part = true
    · have hpc : ¬arg.toNat % 16 < 12 := by
        refine Nat.not_lt.2 (hpin.resolve_left fun hcal => ?_)
        rw [hcal] at htaken
        exact Bool.false_ne_true htaken
      exact (exec_command_taken (c := .pin) arg hrel htaken).trans (congrArg _ (dif_neg hpc))
    · exact exec_command_refused (c := .pin) arg hrel hinit (Bool.eq_false_iff.2 htaken)
  · rcases hcmd with rfl | rfl
    · exact exec_command_refused (c := .unpin) arg hrel hinit (by rw [hpart]; rfl)
    · exact exec_command_refused (c := .clear) arg hrel hinit (by rw [hpart]; rfl)
  · rw [exec_keycfg data hrel, State.writeData_setup_refused hinit hpart (by decide)]
  · rcases hlive with rfl | rfl | rfl
    · rw [exec_enable data hrel, State.writeData_live_refused hpart (by decide)]
    · rw [exec_attnMask data hrel, State.writeData_live_refused hpart (by decide)]
    · rw [exec_mute m hrel, State.writeData_live_refused hpart (by decide)]
  · rw [exec_writeWord addr data hrel, State.writeData_setup_refused hinit hpart hacc]
  · rw [exec_writeWord addr data hrel, State.writeData_live_refused hpart hacc]

/-! ## KEYCFG and the mask -/

theorem field_zero (w : Word16) (width : Nat) : field w 0 width = w.toNat % 2 ^ width := by
  rw [field, Nat.pow_zero, Nat.div_one]

theorem ScaleKind.code_ofCode {n : Nat} (h : n < 4) : (ScaleKind.ofCode n).code = n := by
  revert n
  decide

/-- Settles O35: the word as held, and the context it sets. -/
theorem keycfgWriteSetsContext : Obligations.KeycfgWriteSetsContext := by
  intro data s hrel hpart
  refine ⟨?_, ?_, Iff.rfl, fun hauto => ?_, fun hpinned => ?_⟩
  · rw [exec_keycfg data hrel, State.writeData_setup hpart (by decide)]
    rfl
  · exact congrArg (min 11) (field_zero data 4)
  · rw [keyConfigOf, hauto]
    rfl
  · rw [keyConfigOf, hpinned, if_pos rfl]
    exact ScaleKind.code_ofCode (Nat.mod_lt _ (by decide))

theorem BitVec.ne_zero_iff_exists_getLsbD {n : Nat} (x : BitVec n) : x ≠ 0 ↔ ∃ i, i < n ∧ x.getLsbD i = true := by
  refine ⟨fun h => ?_, fun ⟨i, _, hi⟩ h => ?_⟩
  · by_contra hno
    refine h (BitVec.eq_of_getLsbD_eq fun i hi => ?_)
    refine Eq.trans ?_ BitVec.getLsbD_zero.symm
    exact Bool.eq_false_iff.2 fun hbit => hno ⟨i, hi, hbit⟩
  · rw [h] at hi
    exact Bool.false_ne_true (BitVec.getLsbD_zero.symm.trans hi)

/-- R169: the attention line is low exactly while an unmasked cause is pending. -/
theorem State.attentionLow_iff (s : State) :
    s.attentionLow = true ↔ ∃ i, i < 7 ∧ s.sc.causes.getLsbD i = true ∧ s.sc.mask.getLsbD i = false := by
  rw [State.attentionLow, bne_iff_ne, BitVec.ne_zero_iff_exists_getLsbD]
  refine exists_congr fun i => and_congr_right fun hi => ?_
  simp [hi]

theorem Cause.index_lt (c : Cause) : c.index < 7 := by cases c <;> decide

theorem Cause.getLsbD_bit (c : Cause) {i : Nat} (hi : i < 7) : c.bit.getLsbD i = decide (i = c.index) := by
  revert i
  cases c <;> decide

theorem State.raise_getLsbD (c : Cause) (s : State) {i : Nat} (hi : i < 7) :
    (s.raise c).sc.causes.getLsbD i = (s.sc.causes.getLsbD i || decide (i = c.index)) := by
  rw [← c.getLsbD_bit hi]
  exact BitVec.getLsbD_or

/-- Settles O37, bit by bit of the pending set. -/
theorem attentionLineFollowsPendingAndMask : Obligations.AttentionLineFollowsPendingAndMask := by
  refine ⟨fun data s hrel hpart => ?_, State.attentionLow_iff, fun c s => ⟨?_, fun i hi => s.raise_getLsbD c hi⟩⟩
  · obtain ⟨hinit, hcal⟩ := PartState.ne_of_writes hpart
    have hmask : data.extractLsb' 0 7 = data.setWidth 7 := BitVec.eq_of_toNat_eq (by simp)
    rw [exec_attnMask data hrel, State.writeData_live hinit hcal (by decide), hmask]
    rfl
  · rw [Bool.eq_iff_iff, Bool.or_eq_true, State.attentionLow_iff, State.attentionLow_iff, Bool.not_eq_true']
    constructor
    · rintro ⟨i, hi, hpending, hmask⟩
      rw [s.raise_getLsbD c hi, Bool.or_eq_true, decide_eq_true_eq] at hpending
      rcases hpending with hpending | rfl
      · exact .inl ⟨i, hi, hpending, hmask⟩
      · exact .inr hmask
    · rintro (⟨i, hi, hpending, hmask⟩ | hmask)
      · exact ⟨i, hi, by rw [s.raise_getLsbD c hi, hpending, Bool.true_or], hmask⟩
      · exact ⟨c.index, c.index_lt, by rw [s.raise_getLsbD c c.index_lt]; simp, hmask⟩

end Sys2Proof.Machine
end

section
/-! PROOFS. The words of 11.4: how a word's fields are placed and read, what each word reads, and what a write of each stores
(R158, R159, R168 to R174). -/

namespace Sys2Proof.Machine

/-! ## Fields -/

theorem flagAt_eq (b : Bool) (n : Nat) : flagAt b n = 2 ^ n * b.toNat := by
  cases b
  · exact (Nat.mul_zero _).symm
  · exact (Nat.mul_one _).symm

theorem toNat_wordOf {n : Nat} (h : n < 65536) : (wordOf n).toNat = n := (BitVec.toNat_ofNat ..).trans (Nat.mod_eq_of_lt h)

theorem toNat_wordOf_mod (n : Nat) : (wordOf n).toNat = n % 65536 := BitVec.toNat_ofNat ..

theorem ofNat_toField (x : Int) (width : Nat) : BitVec.ofNat width (toField x width) = BitVec.ofInt width x := by
  refine BitVec.eq_of_toNat_eq ?_
  have hpos : (0 : Int) < (2 ^ width : Nat) := by positivity
  have hlt : (x % (2 ^ width : Nat)).toNat < 2 ^ width := by
    have := Int.emod_nonneg x hpos.ne'
    have := Int.emod_lt_of_pos x hpos
    omega
  rw [toField, BitVec.toNat_ofNat, BitVec.toNat_ofInt, Nat.mod_eq_of_lt hlt]

theorem toField_lt (x : Int) (width : Nat) : toField x width < 2 ^ width := by
  have hpos : (0 : Int) < (2 ^ width : Nat) := by positivity
  have := Int.emod_nonneg x hpos.ne'
  have := Int.emod_lt_of_pos x hpos
  rw [toField]
  omega

/-- R174: a value put into a word of its own in two's complement is read back by its sign. -/
theorem toInt_wordOf_toField {x : Int} (hlow : -32768 ≤ x) (hhigh : x ≤ 32767) : (wordOf (toField x 16)).toInt = x := by
  rw [wordOf, ofNat_toField, BitVec.toInt_ofInt]
  exact Int.bmod_eq_of_le (by norm_num; omega) (by norm_num; omega)

theorem toNat_extractLsb'_wordOf (n low width : Nat) (h : low + width ≤ 16) :
    ((wordOf n).extractLsb' low width).toNat = n / 2 ^ low % 2 ^ width := by
  rw [BitVec.extractLsb'_toNat, toNat_wordOf_mod, Nat.shiftRight_eq_div_pow,
    show (65536 : Nat) = 2 ^ low * 2 ^ (16 - low) by rw [← Nat.pow_add, Nat.add_sub_cancel' (by omega)],
    Nat.mod_mul_right_div_self, Nat.mod_mod_of_dvd _ (Nat.pow_dvd_pow 2 (by omega))]

/-- R52: an interval of five bits in two's complement. -/
theorem toInt_ofNat_toField5 {x : Int} (hlow : -16 ≤ x) (hhigh : x ≤ 15) : (BitVec.ofNat 5 (toField x 5)).toInt = x := by
  rw [ofNat_toField, BitVec.toInt_ofInt]
  exact Int.bmod_eq_of_le (by norm_num; omega) (by norm_num; omega)

theorem signedField5_eq (w : Word16) (low : Nat) : signedField w low 5 = (w.extractLsb' low 5).toInt := by
  rw [signedField, field, BitVec.toInt_eq_toNat_cond, BitVec.extractLsb'_toNat, Nat.shiftRight_eq_div_pow]
  split <;> split <;> omega

theorem stationMap_eq (p : Station → Bool) : stationMap p
    = (p 0).toNat + 2 * (p 1).toNat + 4 * (p 2).toNat + 8 * (p 3).toNat + 16 * (p 4).toNat + 32 * (p 5).toNat
      + 64 * (p 6).toNat + 128 * (p 7).toNat := by
  rw [stationMap]
  simp only [List.finRange, List.ofFn, Fin.foldr, Fin.foldr.loop, List.foldl_cons, List.foldl_nil, flagAt_eq]
  norm_num
  rfl

theorem stationMap_lt (p : Station → Bool) : stationMap p < 256 := by
  rw [stationMap_eq]
  have h := fun i => (p i).toNat_le
  linarith [h 0, h 1, h 2, h 3, h 4, h 5, h 6, h 7]

/-- R126: a map of eight bits has the bit of a station at its place. -/
theorem stationMap_bit (p : Station → Bool) (st : Station) : stationMap p / 2 ^ st.val % 2 = (p st).toNat := by
  rw [stationMap_eq]
  have h := fun i => (p i).toNat_le
  have h0 := h 0; have h1 := h 1; have h2 := h 2; have h3 := h 3
  have h4 := h 4; have h5 := h 5; have h6 := h 6; have h7 := h 7
  fin_cases st <;> simp only [Fin.isValue, Fin.zero_eta, Fin.mk_one, Fin.reduceFinMk] <;> omega

theorem getLsbD_wordOf (n : Nat) {i : Nat} (h : i < 16) : (wordOf n).getLsbD i = decide (n / 2 ^ i % 2 = 1) := by
  rw [wordOf, BitVec.getLsbD_ofNat, decide_eq_true h, Bool.true_and, Nat.testBit_eq_decide_div_mod_eq]

/-! ## The addresses of the indexed words -/

theorem wordAt_ruleA (i : Fin 4) : wordAt (BitVec.ofNat 6 (0x13 + i.val)) = .ruleA i := by
  revert i
  decide

theorem wordAt_ruleB (i : Fin 4) : wordAt (BitVec.ofNat 6 (0x17 + i.val)) = .ruleB i := by
  revert i
  decide

theorem wordAt_lane (v : VoiceIx) : wordAt (BitVec.ofNat 6 (0x1B + v.val)) = .lane v := by
  revert v
  decide

theorem wordAt_voiceCfg (v : VoiceIx) : wordAt (BitVec.ofNat 6 (0x23 + v.val)) = .voiceCfg v := by
  revert v
  decide

theorem wordAt_busGain (b : BusIx) : wordAt (BitVec.ofNat 6 (0x2C + b.val)) = .busGain b := by
  revert b
  decide

theorem wordAt_voiceGain (v : VoiceIx) : wordAt (BitVec.ofNat 6 (0x30 + v.val)) = .voiceGain v := by
  revert v
  decide

theorem wordAt_vstat (v : VoiceIx) :
    wordAt (BitVec.ofNat 6 (0x38 + v.val / 2)) = .vstat ⟨v.val / 2, Nat.div_lt_of_lt_mul v.isLt⟩ := by
  revert v
  decide

/-! ## ENABLE -/

theorem State.toNat_enableWord (s : State) : s.enableWord.toNat
    = stationMap (fun v => s.voices[v].cfg.enabled) + 256 * s.bm.mute.toNat + 512 * s.sc.wakeOnVoice.toNat := by
  have hmap := stationMap_lt fun v => s.voices[v].cfg.enabled
  have hmute := s.bm.mute.toNat_le
  have hwake := s.sc.wakeOnVoice.toNat_le
  rw [State.enableWord, flagAt_eq, flagAt_eq]
  exact toNat_wordOf (by omega)

theorem decide_toNat_eq_one (b : Bool) : decide (b.toNat = 1) = b := by cases b <;> rfl

/-- The ENABLE word shows each voice's enable bit, MUTE and WAKE_ON_VOICE, and 0 in the bits above. -/
theorem State.enableWord_bits (s : State) :
    (∀ v : VoiceIx, s.enableWord.getLsbD v.val = s.voices[v].cfg.enabled)
    ∧ s.enableWord.getLsbD 8 = s.bm.mute ∧ s.enableWord.getLsbD 9 = s.sc.wakeOnVoice ∧ s.enableWord.toNat < 1024 := by
  have hword := s.toNat_enableWord
  have hmap := stationMap_lt fun v => s.voices[v].cfg.enabled
  have hmute := s.bm.mute.toNat_le
  have hwake := s.sc.wakeOnVoice.toNat_le
  have hbit : ∀ (i : Nat) (b : Bool), s.enableWord.toNat / 2 ^ i % 2 = b.toNat → s.enableWord.getLsbD i = b := by
    intro i b h
    rw [BitVec.getLsbD, Nat.testBit_eq_decide_div_mod_eq, h, decide_toNat_eq_one]
  refine ⟨fun v => hbit _ _ ?_, hbit _ _ (by omega), hbit _ _ (by omega), by omega⟩
  rw [← stationMap_bit (fun v => s.voices[v].cfg.enabled) v, hword]
  have hv := v.isLt
  interval_cases v.val <;> omega

/-- R129: what a written enable bit does to a voice whose bit it changes, and whether its DROP is offered. -/
theorem Voice.setEnable_of_ne {bit : Bool} {vo : Voice} (h : vo.cfg.enabled ≠ bit) :
    (vo.setEnable bit).1.cfg = { vo.cfg with enabled := bit }
    ∧ (vo.setEnable bit).1.eng = (match vo.eng.state, bit with
      | .off, true => { vo.eng with state := .idle }
      | .idle, false => { vo.eng with state := .off }
      | .fade, b => { vo.eng with disablePending := !b }
      | .off, false => vo.eng
      | _, true => vo.eng
      | _, false => { vo.eng with state := .fade, disablePending := true })
    ∧ (vo.setEnable bit).1.plan = (if !bit && vo.eng.state.sounding then
        { vo.plan with claim := none, decided := none, onAlternate := false, freeCount := 0, doubled := false }
      else vo.plan)
    ∧ (vo.setEnable bit).2 = (!bit && vo.eng.state.sounding) := by
  rw [Voice.setEnable, if_neg h]
  cases vo.eng.state <;> cases bit <;> exact ⟨rfl, rfl, rfl, rfl⟩

theorem Voice.setEnable_of_eq {bit : Bool} {vo : Voice} (h : vo.cfg.enabled = bit) : vo.setEnable bit = (vo, false) :=
  if_pos h

theorem Voice.setEnable_drops (bit : Bool) (vo : Voice) :
    (vo.setEnable bit).2 = (vo.cfg.enabled && !bit && vo.eng.state.sounding) := by
  by_cases h : vo.cfg.enabled = bit
  · rw [Voice.setEnable_of_eq h, h]
    cases bit <;> rfl
  · obtain ⟨-, -, -, hdrop⟩ := Voice.setEnable_of_ne h
    rw [hdrop]
    cases bit
    · rw [Bool.eq_true_of_not_eq_false h]
      rfl
    · rw [Bool.not_true, Bool.and_false, Bool.false_and]

/-- R129: an ENABLE write that is taken. -/
theorem State.takeEnable_eq (data : Word16) (s : State) : s.takeEnable data = { s with
    voices := Vector.ofFn fun v => (s.voices[v].setEnable (data.getLsbD v.val)).1
    link := ((List.finRange 8).filter fun v =>
      s.voices[v].cfg.enabled && !data.getLsbD v.val && s.voices[v].eng.state.sounding).foldl
        (fun l v => l.offer (.drop v)) s.link
    bm := { s.bm with mute := data.getLsbD 8 }
    sc := { s.sc with wakeOnVoice := data.getLsbD 9 } } := by
  have hdrops : (fun v : VoiceIx => (s.voices[v].setEnable (data.getLsbD v.val)).2)
      = fun v => s.voices[v].cfg.enabled && !data.getLsbD v.val && s.voices[v].eng.state.sounding :=
    funext fun v => Voice.setEnable_drops ..
  rw [State.takeEnable, State.writeEnables, State.foldPutVoice_eq, hdrops]

theorem State.writeData_enable {s : State} (hpart : s.sc.part = .setup ∨ s.sc.part = .live ∨ s.sc.part = .standby)
    (w : Word16) : s.writeData 0x2B w = s.endTransaction.takeEnable w :=
  State.writeData_live (PartState.ne_of_writes hpart).1 (PartState.ne_of_writes hpart).2 (by decide) w

/-- R152: an ENABLE write that repeats every voice's bit and WAKE_ON_VOICE takes the MUTE bit alone. -/
theorem State.takeEnable_of_same {s : State} {w : Word16} (hbits : ∀ v : VoiceIx, s.voices[v].cfg.enabled = w.getLsbD v.val)
    (hwake : w.getLsbD 9 = s.sc.wakeOnVoice) : s.takeEnable w = { s with bm := { s.bm with mute := w.getLsbD 8 } } := by
  have hvoices : (Vector.ofFn fun v : VoiceIx => (s.voices[v].setEnable (w.getLsbD v.val)).1) = s.voices := by
    refine Vector.ext fun i hi => ?_
    rw [Vector.getElem_ofFn hi]
    exact congrArg Prod.fst (Voice.setEnable_of_eq (hbits ⟨i, hi⟩))
  have hdrops : ((List.finRange 8).filter fun v : VoiceIx =>
      s.voices[v].cfg.enabled && !w.getLsbD v.val && s.voices[v].eng.state.sounding) = [] := by
    refine List.filter_eq_nil_iff.2 fun v _ => ?_
    rw [hbits v, Bool.and_not_self, Bool.false_and]
    exact Bool.false_ne_true
  rw [State.takeEnable_eq, hvoices, hdrops, hwake]
  rfl

/-- The ENABLE word with its MUTE bit replaced keeps every other bit. -/
theorem State.enableWord_withMute (s : State) (m : Bool) {i : Nat} (hi : i < 16) :
    ((s.enableWord &&& 0xFEFF) ||| (if m then 0x0100 else 0)).getLsbD i = if i = 8 then m else s.enableWord.getLsbD i := by
  rw [BitVec.getLsbD_or, BitVec.getLsbD_and]
  cases m <;> interval_cases i <;> simp

/-- Settles O36, voice by voice from what a written enable bit does to one voice. -/
theorem enableWriteActsPerVoice : Obligations.EnableWriteActsPerVoice := by
  refine ⟨fun data s hrel hpart => ?_, fun m s hrel hpart => ?_⟩
  · refine ⟨s.endTransaction.takeEnable data, ?_, ?_⟩
    · rw [exec_enable data hrel, State.writeData_enable hpart]
    rw [State.takeEnable_eq]
    have hget : ∀ v : VoiceIx, (Vector.ofFn fun v : VoiceIx => (s.voices[v].setEnable (data.getLsbD v.val)).1)[v]
        = (s.voices[v].setEnable (data.getLsbD v.val)).1 := fun v => Vector.getElem_ofFn v.isLt
    refine ⟨fun v hsame => ?_, fun v hoff hbit => ?_, fun v hon hbit => ?_, rfl, rfl, rfl, rfl, rfl, rfl, rfl, rfl, rfl, rfl⟩
    · exact (hget v).trans (congrArg Prod.fst (Voice.setEnable_of_eq hsame))
    · obtain ⟨hcfg, heng, hplan, -⟩ := Voice.setEnable_of_ne (bit := true) (vo := s.voices[v])
        (by rw [hoff]; exact Bool.false_ne_true)
      refine ⟨(congrArg Voice.cfg (hget v)).trans (by rw [hbit, hcfg]),
        (congrArg Voice.plan (hget v)).trans (by rw [hbit, hplan]; rfl),
        (congrArg Voice.eng (hget v)).trans (by rw [hbit, heng]; cases s.voices[v].eng.state <;> rfl)⟩
    · obtain ⟨hcfg, heng, hplan, -⟩ := Voice.setEnable_of_ne (bit := false) (vo := s.voices[v])
        (by rw [hon]; exact Bool.false_ne_true.symm)
      refine ⟨(congrArg Voice.cfg (hget v)).trans (by rw [hbit, hcfg]),
        (congrArg Voice.eng (hget v)).trans (by rw [hbit, heng]; cases s.voices[v].eng.state <;> rfl),
        (congrArg Voice.plan (hget v)).trans (by rw [hbit, hplan]; rfl)⟩
  · obtain ⟨henabled, -, hwake, -⟩ := s.enableWord_bits
    rw [exec_mute m hrel, State.writeData_enable hpart, State.takeEnable_of_same]
    · rw [s.enableWord_withMute m (by decide), if_pos rfl]
      rfl
    · intro v
      rw [s.enableWord_withMute m (Nat.lt_trans v.isLt (by decide)), if_neg (Nat.ne_of_lt v.isLt), henabled v]
      rfl
    · rw [s.enableWord_withMute m (by decide), if_neg (by decide), hwake]
      rfl

end Sys2Proof.Machine
end

section
/-! PROOFS. What every word reads (R168 to R174, 11.4) and what a write of each setup and gain word stores (R159, R174). -/

namespace Sys2Proof.Machine

/-! ## Writes -/

theorem exec_writeWord_setup {s : State} (hrel : s.sc.resetHeld = false) (hpart : s.sc.part = .setup) {addr : BitVec 6}
    {n : WordName} (haddr : wordAt addr = n) (hacc : n.access = .setup) (data : Word16) :
    exec (.writeWord addr data) s = .next (s.endTransaction.storeWord n data) := by
  rw [exec_writeWord addr data hrel, State.writeData_setup hpart (by rw [haddr, hacc]), haddr]

theorem exec_writeWord_live {s : State} (hrel : s.sc.resetHeld = false)
    (hpart : s.sc.part = .setup ∨ s.sc.part = .live ∨ s.sc.part = .standby) {addr : BitVec 6}
    {n : WordName} (haddr : wordAt addr = n) (hacc : n.access = .live) (data : Word16) :
    exec (.writeWord addr data) s = .next (s.endTransaction.storeWord n data) := by
  obtain ⟨hinit, hcal⟩ := PartState.ne_of_writes hpart
  rw [exec_writeWord addr data hrel, State.writeData_live hinit hcal (by rw [haddr, hacc]), haddr]

theorem field_high (w : Word16) {low width : Nat} (h : 16 ≤ low + width) : field w low width = w.toNat / 2 ^ low := by
  refine Nat.mod_eq_of_lt (Nat.div_lt_of_lt_mul ?_)
  rw [← Nat.pow_add]
  exact Nat.lt_of_lt_of_le w.isLt (Nat.pow_le_pow_right (by decide) h)

theorem IntervalRule.withA_eq (r : IntervalRule) (w : Word16) : r.withA w = { r with
    primary := max (-14) (min 14 (w.extractLsb' 0 5).toInt)
    alternate := max (-14) (min 14 (w.extractLsb' 5 5).toInt)
    double := w.getLsbD 10 } := by
  rw [IntervalRule.withA, signedField5_eq, signedField5_eq]
  rfl

theorem IntervalRule.withB_eq (r : IntervalRule) (w : Word16) : r.withB w = { r with
    follow := min 100 (w.toNat % 128), glide := 5 * min 240 (w.toNat / 256) } := by
  rw [IntervalRule.withB, field_zero, field_high w (by decide)]
  rfl

theorem VoiceConfig.withLane_eq (c : VoiceConfig) (w : Word16) : c.withLane w = { c with
    laneLow := max 28 (min 96 (w.toNat % 256)), laneSpan := max 12 (min 36 (w.toNat / 256 % 64)) } := by
  rw [VoiceConfig.withLane, field_zero]
  rfl

theorem VoiceConfig.withCfg_eq (c : VoiceConfig) (w : Word16) : c.withCfg w = { c with
    rule := ⟨w.toNat % 4, Nat.mod_lt _ (by decide)⟩, bus := ⟨w.toNat / 4 % 4, Nat.mod_lt _ (by decide)⟩
    fadeOnLoss := w.getLsbD 4, attack := max 1 (min 16 (w.toNat / 32 % 32))
    release := w.toNat / 1024 + 1 } := by
  have hrule : field w 0 2 = w.toNat % 4 := field_zero w 2
  have hrelease : field w 10 6 = w.toNat / 1024 := field_high w (by decide)
  simp only [VoiceConfig.withCfg, hrule, hrelease]
  rfl

theorem gainCodeOf_eq (w : Word16) : gainCodeOf w = min 152 (w.toNat % 256) := by
  rw [gainCodeOf, field_zero]
  rfl

/-! ## Words read back as held -/

theorem ScaleKind.code_lt (k : ScaleKind) : k.code < 4 := by cases k <;> decide

theorem State.toNat_keycfgWord (k : KeyConfig) : k.word.toNat = k.key.pc.val + 16 * k.key.kind.code + 64 * k.pinned.toNat := by
  have hpc := k.key.pc.isLt
  have hkind := k.key.kind.code_lt
  have hpinned := k.pinned.toNat_le
  rw [KeyConfig.word, flagAt_eq]
  exact toNat_wordOf (by omega)

theorem IntervalRule.readA {r : IntervalRule} (h : r.inRange) :
    (r.wordA.extractLsb' 0 5).toInt = r.primary ∧ (r.wordA.extractLsb' 5 5).toInt = r.alternate
      ∧ r.wordA.toNat / 1024 = r.double.toNat := by
  obtain ⟨hlow, hhigh, hlow', hhigh', -, -⟩ := h
  have hprimary := toField_lt r.primary 5
  have halternate := toField_lt r.alternate 5
  have hdouble := r.double.toNat_le
  have hfield : ∀ (low n : Nat), low + 5 ≤ 16 →
      (toField r.primary 5 + 32 * toField r.alternate 5 + flagAt r.double 10) / 2 ^ low % 2 ^ 5 = n →
      r.wordA.extractLsb' low 5 = BitVec.ofNat 5 n := by
    intro low n hle heq
    refine BitVec.eq_of_toNat_eq ?_
    rw [IntervalRule.wordA, toNat_extractLsb'_wordOf _ _ _ hle, BitVec.toNat_ofNat, ← heq, Nat.mod_mod]
  rw [flagAt_eq] at hfield
  refine ⟨?_, ?_, ?_⟩
  · rw [hfield 0 (toField r.primary 5) (by decide) (by omega), toInt_ofNat_toField5 (by omega) (by omega)]
  · rw [hfield 5 (toField r.alternate 5) (by decide) (by omega), toInt_ofNat_toField5 (by omega) (by omega)]
  · rw [IntervalRule.wordA, flagAt_eq, toNat_wordOf (by omega)]
    omega

theorem IntervalRule.toNat_wordB {r : IntervalRule} (h : r.inRange) : r.wordB.toNat = r.follow + 256 * (r.glide / 5) := by
  obtain ⟨-, -, -, -, hfollow, hglide⟩ := h
  exact toNat_wordOf (by omega)

theorem VoiceConfig.toNat_laneWord {c : VoiceConfig} (h : c.inRange) : c.laneWord.toNat = c.laneLow + 256 * c.laneSpan := by
  obtain ⟨-, hlow, -, hspan, -⟩ := h
  exact toNat_wordOf (by omega)

theorem VoiceConfig.toNat_cfgWord {c : VoiceConfig} (h : c.inRange) : c.cfgWord.toNat
    = c.rule.val + 4 * c.bus.val + 16 * c.fadeOnLoss.toNat + 32 * c.attack + 1024 * (c.release - 1) := by
  obtain ⟨-, -, -, -, -, hattack, -, hrelease, -⟩ := h
  have hrule := c.rule.isLt
  have hbus := c.bus.isLt
  have hfade := c.fadeOnLoss.toNat_le
  rw [VoiceConfig.cfgWord, flagAt_eq]
  exact toNat_wordOf (by omega)

theorem State.readWord_at (s : State) {addr : BitVec 6} {n : WordName} (h : wordAt addr = n) :
    s.readWord addr = s.wordValue n := congrArg s.wordValue h

/-- Settles O39: each word by its address, its fields clamped at the write and placed again at the read. -/
theorem wordWritesStoreClamped : Obligations.WordWritesStoreClamped := by
  refine ⟨fun s hok => ?_, fun data s hrel => ⟨fun hpart => ?_, fun hpart => ?_⟩⟩
  · obtain ⟨⟨hgate, hgate'⟩, ⟨-, hsnap⟩, ⟨-, hsettle⟩, ⟨-, hrefresh⟩, hvoiced, hhold, hrules, hvoices, -⟩ := hok
    refine ⟨toInt_wordOf_toField (by omega) (by omega), toNat_wordOf (by omega), toNat_wordOf (by omega),
      toNat_wordOf (by omega), toNat_wordOf (by omega), State.toNat_keycfgWord _, ?_, fun i => ?_, fun i => ?_,
      fun v => ?_, fun v => ?_, fun v => ?_⟩
    · have hclass := s.cfg.collideClass.toNat_le
      refine (toNat_wordOf ?_).trans ?_ <;> rw [flagAt_eq] <;> omega
    · rw [s.readWord_at (wordAt_ruleA i)]
      exact IntervalRule.readA (hrules i)
    · rw [s.readWord_at (wordAt_ruleB i)]
      exact IntervalRule.toNat_wordB (hrules i)
    · rw [s.readWord_at (wordAt_lane v)]
      exact VoiceConfig.toNat_laneWord (hvoices v)
    · rw [s.readWord_at (wordAt_voiceCfg v)]
      exact VoiceConfig.toNat_cfgWord (hvoices v)
    · rw [s.readWord_at (wordAt_voiceGain v)]
      obtain ⟨-, -, -, -, -, -, -, -, hgain⟩ := hvoices v
      exact toNat_wordOf (by omega)
  · have write : ∀ {addr : BitVec 6} {n : WordName}, wordAt addr = n → n.access = .setup →
        exec (.writeWord addr data) s = .next (s.endTransaction.storeWord n data) :=
      fun haddr hacc => exec_writeWord_setup hrel hpart haddr hacc data
    have setup : ∀ {cfg cfg' : Setup}, cfg = cfg' →
        (Host.Outcome.next { s.endTransaction with cfg := cfg } : Host.Outcome State Fault Refusal)
          = .next { s.endTransaction with cfg := cfg' } := fun h => by rw [h]
    have voice : ∀ {v : VoiceIx} {c c' : VoiceConfig}, c = c' →
        (Host.Outcome.next (s.endTransaction.setVoice v { s.voices[v] with cfg := c }) : Host.Outcome State Fault Refusal)
          = .next (s.endTransaction.setVoice v { s.voices[v] with cfg := c' }) := fun h => by rw [h]
    refine ⟨write (addr := 0x0C) (n := .gate) (by decide) rfl, (write (addr := 0x0D) (n := .voiced) (by decide) rfl).trans (setup ?_),
      (write (addr := 0x0E) (n := .snap) (by decide) rfl).trans (setup ?_),
      (write (addr := 0x0F) (n := .settle) (by decide) rfl).trans (setup ?_),
      (write (addr := 0x10) (n := .refresh) (by decide) rfl).trans (setup ?_), write (addr := 0x12) (n := .collide) (by decide) rfl,
      fun i => (write (wordAt_ruleA i) rfl).trans (setup ?_), fun i => (write (wordAt_ruleB i) rfl).trans (setup ?_),
      fun v => (write (wordAt_lane v) rfl).trans (voice (VoiceConfig.withLane_eq ..)),
      fun v => (write (wordAt_voiceCfg v) rfl).trans (voice (VoiceConfig.withCfg_eq ..))⟩
    · rw [field_zero, field_high data (by decide)]
      rfl
    · rw [field_zero, clampNat]
      rfl
    · rw [field_zero, clampNat]
      rfl
    · rw [field_zero, clampNat]
      rfl
    · exact congrArg (fun r => { s.cfg with rules := s.cfg.rules.set i r }) (IntervalRule.withA_eq ..)
    · exact congrArg (fun r => { s.cfg with rules := s.cfg.rules.set i r }) (IntervalRule.withB_eq ..)
  · have write : ∀ {addr : BitVec 6} {n : WordName}, wordAt addr = n → n.access = .live →
        exec (.writeWord addr data) s = .next (s.endTransaction.storeWord n data) :=
      fun haddr hacc => exec_writeWord_live hrel hpart haddr hacc data
    refine ⟨fun b => (write (wordAt_busGain b) rfl).trans ?_, fun v => (write (wordAt_voiceGain v) rfl).trans ?_⟩
    · rw [State.storeWord, gainCodeOf_eq]
      rfl
    · rw [State.storeWord, gainCodeOf_eq]
      rfl

/-! ## The status words -/

theorem PartState.code_le (p : PartState) : p.code ≤ 4 := by cases p <;> decide

theorem StartCause.code_le (c : StartCause) : c.code ≤ 2 := by cases c <;> decide

theorem LinkState.code_le (l : LinkState) : l.code ≤ 4 := by cases l <;> decide

theorem VoiceState.code_le (v : VoiceState) : v.code ≤ 5 := by cases v <;> decide

theorem State.toNat_stateWord (s : State) : s.stateWord.toNat
    = s.sc.part.code + 8 * s.sc.cause.code + 32 * s.sc.station.val + 256 * s.sc.solo.toNat
      + 512 * (decide (s.sc.part = .init)).toNat + 1024 * (decide (s.sc.part = .calibrate)).toNat
      + 2048 * s.link.state.code + 16384 * s.ap.syncPresent.toNat := by
  have hpart := s.sc.part.code_le
  have hcause := s.sc.cause.code_le
  have hstation := s.sc.station.isLt
  have hsolo := s.sc.solo.toNat_le
  have hinit := (decide (s.sc.part = .init)).toNat_le
  have hcal := (decide (s.sc.part = .calibrate)).toNat_le
  have hlink := s.link.state.code_le
  have hsync := s.ap.syncPresent.toNat_le
  rw [State.stateWord, flagAt_eq, flagAt_eq, flagAt_eq, flagAt_eq]
  exact toNat_wordOf (by omega)

/-- R170: the number of the most urgent cause is that of its lowest pending bit. -/
theorem mostUrgent_eq_succ_iff (causes : BitVec 7) (n : Nat) : mostUrgent causes = n + 1 ↔
    n < 7 ∧ causes.getLsbD n = true ∧ ∀ i, i < n → causes.getLsbD i = false := by
  have hfind : mostUrgent causes = n + 1 ↔ (List.range 7).find? (fun i => causes.getLsbD i) = some n := by
    rw [mostUrgent]
    cases (List.range 7).find? fun i => causes.getLsbD i with
    | none => simp
    | some i => simp
  rw [hfind, List.find?_range_eq_some, List.mem_range]
  simp only [Bool.not_eq_true']
  exact and_left_comm

theorem mostUrgent_eq_zero_iff (causes : BitVec 7) : mostUrgent causes = 0 ↔ causes = 0 := by
  revert causes
  decide

theorem mostUrgent_le (causes : BitVec 7) : mostUrgent causes ≤ 7 := by
  cases h : mostUrgent causes with
  | zero => exact Nat.zero_le 7
  | succ n => exact ((mostUrgent_eq_succ_iff causes n).1 h).1

theorem State.toNat_attnWord (s : State) : s.attnWord.toNat = s.sc.causes.toNat + 256 * mostUrgent s.sc.causes := by
  have hcauses := s.sc.causes.isLt
  have hurgent := mostUrgent_le s.sc.causes
  exact toNat_wordOf (by omega)

theorem State.toNat_contextWord (s : State) : s.contextWord.toNat
    = s.cu.key.pc.val + 16 * s.cu.key.kind.code + (64 * s.cu.mode.code + 256 * s.cu.mode.stationShown)
      + 32768 * s.cu.changed.toNat := by
  have hpc := s.cu.key.pc.isLt
  have hkind := s.cu.key.kind.code_lt
  have hchanged := s.cu.changed.toNat_le
  have hmode : s.cu.mode.code ≤ 2 ∧ s.cu.mode.stationShown < 8 := by
    cases s.cu.mode with
    | auto => decide
    | pinnedLocal => decide
    | pinnedPeer p => exact ⟨Nat.le_refl 2, p.isLt⟩
  rw [State.contextWord, flagAt_eq, ← Nat.add_assoc]
  exact toNat_wordOf (by omega)

theorem State.toNat_leadInfoWord {s : State} (hconf : s.pt.record.confidence ≤ 255) (hlevel : s.pt.record.level ≤ 0) :
    (s.leadInfoWord.toNat : Int)
      = s.pt.record.confidence + 256 * min 127 (-s.pt.record.level) + 32768 * s.pt.record.voiced.toNat := by
  have hvoiced := s.pt.record.voiced.toNat_le
  rw [State.leadInfoWord, flagAt_eq, toNat_wordOf (by omega)]
  omega

/-- R126: the presence map in the low byte of PEERS, the resting map in the high one. -/
theorem State.peersWord_bits (s : State) (p : Station) : s.peersWord.getLsbD p.val = s.peers[p].isSome
    ∧ s.peersWord.getLsbD (8 + p.val) = s.peers[p].any (·.resting) := by
  have hp := p.isLt
  have hpresent := stationMap_bit (fun st => s.peers[st].isSome) p
  have hlow := stationMap_lt fun st => s.peers[st].isSome
  have hresting := stationMap_bit (fun st => match s.peers[st] with
    | some r => r.resting
    | none => false) p
  have hany : (match s.peers[p] with
    | some r => r.resting
    | none => false) = s.peers[p].any (·.resting) := by cases s.peers[p] <;> rfl
  rw [hany] at hresting
  rw [State.peersWord, getLsbD_wordOf _ (by omega), getLsbD_wordOf _ (by omega),
    ← decide_toNat_eq_one s.peers[p].isSome, ← decide_toNat_eq_one (s.peers[p].any _), ← hpresent, ← hresting]
  generalize stationMap (fun st => s.peers[st].isSome) = present at hlow
  generalize stationMap _ = resting
  constructor
  · congr 2
    clear hpresent hresting hany
    interval_cases p.val <;> omega
  · congr 2
    rw [Nat.pow_add, ← Nat.div_div_eq_div_mul]
    congr 2
    omega

/-- R146: the status byte of a voice. -/
theorem Voice.status_eq (vo : Voice) : vo.status
    = vo.eng.state.code + 8 * (vo.plan.claim.any (·.firm)).toNat + 16 * vo.plan.doubled.toNat
      + 32 * vo.eng.rangeClamp.toNat + 64 * vo.eng.clip.toNat
      + 128 * (decide (0 < vo.eng.starve ∨ 0 < vo.eng.cut)).toNat := by
  have hfault : vo.eng.grainFault = decide (0 < vo.eng.starve ∨ 0 < vo.eng.cut) := (Bool.decide_or _ _).symm
  rw [Voice.status, hfault, flagAt_eq, flagAt_eq, flagAt_eq, flagAt_eq, flagAt_eq]
  cases vo.plan.claim <;> rfl

theorem Voice.status_lt (vo : Voice) : vo.status < 256 := by
  have hstate := vo.eng.state.code_le
  have hfirm := (vo.plan.claim.any (·.firm)).toNat_le
  have hdoubled := vo.plan.doubled.toNat_le
  have hclamp := vo.eng.rangeClamp.toNat_le
  have hclip := vo.eng.clip.toNat_le
  have hfault := (decide (0 < vo.eng.starve ∨ 0 < vo.eng.cut)).toNat_le
  rw [Voice.status_eq]
  omega

/-- R146: the status byte of voice v stands in the low byte of its VSTAT word when v is even, in the high byte when odd. -/
theorem State.vstatWord_byte (s : State) (v : VoiceIx) :
    (s.vstatWord ⟨v.val / 2, Nat.div_lt_of_lt_mul v.isLt⟩).toNat / 256 ^ (v.val % 2) % 256 = s.voices[v].status := by
  have hv := v.isLt
  have hlow := s.voices[2 * (v.val / 2)].status_lt
  have hhigh := s.voices[2 * (v.val / 2) + 1].status_lt
  rw [State.vstatWord, toNat_wordOf (by simpa using by omega)]
  rcases Nat.mod_two_eq_zero_or_one v.val with heven | hodd
  · have hix : s.voices[2 * (v.val / 2)] = s.voices[v] := by
      congr 1
      omega
    rw [heven, ← hix]
    simp only
    omega
  · have hix : s.voices[2 * (v.val / 2) + 1] = s.voices[v] := by
      congr 1
      omega
    rw [hodd, ← hix]
    simp only
    omega

/-! ## Reads -/

theorem State.csdo_of_port {s : State} {bits : List Bool} (h : s.sc.port = some bits) : s.csdo true
    = some (bits.head?.getD false && decide (8 ≤ bits.length ∧ bits.length < 24)
        && s.sc.shiftOut.getLsbD (23 - bits.length)) := by
  rw [State.csdo, h, ← List.headD_eq_head?_getD]
  rfl

/-- R157, R173: CSDO in the second half of a read, and at all other times. -/
theorem State.csdo_spec (s : State) : s.csdo false = none ∧ (s.sc.port = none → s.csdo true = some false)
    ∧ ∀ bits : List Bool, s.sc.port = some bits →
      (∀ i : Nat, i < 16 → bits.length = 8 + i → bits.head? = some true →
        s.csdo true = some (s.sc.shiftOut.getLsbD (15 - i)))
      ∧ (bits.length < 8 ∨ 24 ≤ bits.length ∨ bits.head? = some false → s.csdo true = some false) := by
  refine ⟨rfl, fun hport => by rw [State.csdo, hport]; rfl, fun bits hport => ⟨fun i hi hlen hread => ?_, fun hout => ?_⟩⟩
  · have hbit : 23 - (8 + i) = 15 - i := by omega
    rw [State.csdo_of_port hport, hread, hlen, hbit,
      decide_eq_true (show 8 ≤ 8 + i ∧ 8 + i < 24 by omega)]
    rfl
  · rw [State.csdo_of_port hport]
    rcases hout with hshort | hlong | hwrite
    · rw [decide_eq_false (by omega), Bool.and_false, Bool.false_and]
    · rw [decide_eq_false (by omega), Bool.and_false, Bool.false_and]
    · rw [hwrite]
      rfl

theorem exec_attn (phase : ReadPhase) {s : State} (hrel : s.sc.resetHeld = false) : exec (.attn phase) s = .next
    (match phase with
      | .whole => s.captureAttn.completeAttn
      | .capture => s.captureAttn
      | .complete => s.completeAttn) := by
  rw [exec, execAttn]
  exact whenReleased_of_released _ _ hrel

theorem exec_context (phase : ReadPhase) {s : State} (hrel : s.sc.resetHeld = false) : exec (.context phase) s = .next
    (match phase with
      | .whole => s.captureContext.completeContext
      | .capture => s.captureContext
      | .complete => s.completeContext) := by
  rw [exec, execContext]
  exact whenReleased_of_released _ _ hrel

theorem State.completeAttn_of_capture {s : State} {k : BitVec 7} (h : s.sc.capture = some (.attn k)) :
    s.completeAttn = { s with sc := { s.sc with causes := s.sc.causes &&& ~~~k, capture := none } } := by
  rw [State.completeAttn, h]

theorem State.completeContext_of_capture {s : State} {k : Bool} (h : s.sc.capture = some (.context k)) :
    s.completeContext = { s with cu := { s.cu with changed := s.cu.changed && !k }, sc := { s.sc with capture := none } } := by
  rw [State.completeContext, h]

/-- R170: a cause raised since the capture is not cleared by the completion. -/
theorem State.completeAttn_raise {s : State} {k : BitVec 7} (h : s.sc.capture = some (.attn k)) (c : Cause) :
    (s.raise c).completeAttn.sc.causes.getLsbD c.index = true := by
  have hraised : (s.raise c).sc.capture = some (.attn (k &&& ~~~c.bit)) := congrArg (Option.map _) h
  have hi := c.index_lt
  rw [State.completeAttn_of_capture hraised]
  refine (BitVec.getLsbD_and ..).trans ?_
  rw [s.raise_getLsbD c hi, BitVec.getLsbD_not, BitVec.getLsbD_and, BitVec.getLsbD_not, c.getLsbD_bit hi]
  simp [hi]

/-- R51: a change of key or mode made since the capture of CONTEXT keeps its flag. -/
theorem State.completeContext_setContext {s : State} {k : Bool} (h : s.sc.capture = some (.context k)) {key : Key}
    {mode : KeyMode} (openD : Bool) (hne : key ≠ s.cu.key ∨ mode ≠ s.cu.mode) :
    (s.setContext key mode openD).completeContext.cu.changed = true := by
  have hchange : ¬(key = s.cu.key ∧ mode = s.cu.mode) := fun ⟨hkey, hmode⟩ => hne.elim (· hkey) (· hmode)
  have hcapture : (s.setContext key mode openD).sc.capture = some (.context false)
      ∧ (s.setContext key mode openD).cu.changed = true := by
    rw [State.setContext, if_neg hchange]
    exact ⟨congrArg (Option.map _) (congrArg (Option.map _) h), rfl⟩
  rw [State.completeContext_of_capture hcapture.1]
  exact congrArg (· && !false) hcapture.2

/-- Settles O38: each status word by the fields it is placed from, and the reads of ATTN and CONTEXT as whole next states. -/
theorem readClearsWhatItCaptured : Obligations.ReadClearsWhatItCaptured := by
  refine ⟨State.csdo_spec, fun s => ?_, fun s hrel => ?_, fun s hrel => ?_⟩
  · obtain ⟨henables, hmute, hwake, hunused⟩ := s.enableWord_bits
    refine ⟨rfl, s.toNat_stateWord, s.toNat_attnWord, toNat_wordOf (by have := s.sc.mask.isLt; omega), ?_, fun h0 h1 => ?_,
      State.toNat_leadInfoWord, s.peersWord_bits, fun hcrc hecho => toNat_wordOf (by omega), fun hdrops => ?_,
      fun hlow hhigh => toInt_wordOf_toField (by omega) (by omega), fun b hgain hclip => ?_, fun v => ?_,
      henables, hmute, hwake, hunused, fun a ha => ?_⟩
    · refine s.toNat_contextWord.trans ?_
      cases s.cu.mode with
      | auto => rfl
      | pinnedLocal => rfl
      | pinnedPeer p => rfl
    · have hfield : toField s.pt.record.cents 16 = s.pt.record.cents.toNat := by
        rw [toField]
        omega
      refine (congrArg Nat.cast (toNat_wordOf ?_)).trans ?_ <;> rw [hfield] <;> omega
    · have hclamped := s.inp.calClamped.toNat_le
      have haborted := s.inp.calAborted.toNat_le
      refine (toNat_wordOf ?_).trans ?_ <;> rw [flagAt_eq, flagAt_eq]
      · omega
      · rfl
    · rw [s.readWord_at (wordAt_busGain b)]
      exact toNat_wordOf (by omega)
    · rw [s.readWord_at (wordAt_vstat v)]
      exact (s.vstatWord_byte v).trans (Voice.status_eq _)
    · simp only [List.mem_cons, List.not_mem_nil, or_false] at ha
      rcases ha with rfl | rfl | rfl | rfl | rfl <;> rfl
  · refine ⟨?_, exec_attn .capture hrel, fun k hk => ?_, fun c k t hk ht => ?_, mostUrgent_eq_succ_iff _, mostUrgent_eq_zero_iff _⟩
    · rw [exec_attn .whole hrel]
      have hclear : s.sc.causes &&& ~~~s.sc.causes = 0 := BitVec.and_not_self _
      exact congrArg (fun causes => Host.Outcome.next { s with
        sc := { s.sc with shiftOut := s.attnWord, causes := causes, capture := none } }) hclear
    · rw [exec_attn .complete hrel]
      exact congrArg _ (State.completeAttn_of_capture hk)
    · rw [exec_attn .complete (s := s.raise c) hrel] at ht
      rw [← Host.Outcome.next.inj ht]
      exact State.completeAttn_raise hk c
  · refine ⟨?_, exec_context .capture hrel, fun k hk => ?_, fun k key mode openD t hk hne ht => ?_⟩
    · rw [exec_context .whole hrel]
      exact congrArg (fun changed => Host.Outcome.next { s with
        cu := { s.cu with changed := changed }
        sc := { s.sc with shiftOut := s.contextWord, capture := none } }) (Bool.and_false s.cu.changed)
    · rw [exec_context .complete hrel]
      exact congrArg _ (State.completeContext_of_capture hk)
    · have hrel' : (s.setContext key mode openD).sc.resetHeld = false := by
        rw [State.setContext]
        split <;> exact hrel
      rw [exec_context .complete hrel'] at ht
      rw [← Host.Outcome.next.inj ht]
      exact State.completeContext_setContext hk openD hne

end Sys2Proof.Machine
end

section
/-! PROOFS. The port's lines: no transaction holds a reset, and what the events of the lines bring about (R157 to R159, R173). -/

namespace Sys2Proof.Machine

/-! ## A transaction holds no reset -/

theorem State.setContext_resetHeld (key : Key) (mode : KeyMode) (openD : Bool) (s : State) :
    (s.setContext key mode openD).sc.resetHeld = s.sc.resetHeld := by
  rw [State.setContext]
  split <;> rfl

theorem State.enterLive_resetHeld (s : State) : s.enterLive.sc.resetHeld = s.sc.resetHeld := by
  rw [State.enterLive]
  split
  · rfl
  · rw [State.linkFirstLive]
    split <;> rfl

theorem State.takeCommand_resetHeld (c : Command) (arg : Byte) (s : State) :
    (s.takeCommand c arg).sc.resetHeld = s.sc.resetHeld := by
  have hcal : ∀ length, (s.takeCalibrate length).sc.resetHeld = s.sc.resetHeld := by
    intro length
    rw [State.takeCalibrate]
    split <;> rfl
  cases c with
  | go =>
    rw [State.takeCommand, State.takeGo]
    split
    · exact s.enterLive_resetHeld
    · rfl
  | calibrateShort => exact hcal 1024
  | calibrateLong => exact hcal 8192
  | standby =>
    rw [State.takeCommand, State.takeStandby, State.fadeSounding_eq_dropping]
    rfl
  | wake => exact s.enterLive_resetHeld
  | pin =>
    rw [State.takeCommand, State.takePin]
    split
    · exact s.setContext_resetHeld ..
    · rfl
  | unpin =>
    rw [State.takeCommand, State.takeUnpin]
    split
    · rfl
    · exact s.setContext_resetHeld ..
  | clear => rfl

theorem State.codeWrite_resetHeld (code arg : Byte) (s : State) : (s.codeWrite code arg).sc.resetHeld = s.sc.resetHeld := by
  rw [State.codeWrite]
  split
  · rw [State.commandWrite]
    split
    · rfl
    · split
      · exact State.takeCommand_resetHeld ..
      · rfl
  · split <;> rfl

theorem State.storeWord_resetHeld (n : WordName) (w : Word16) (s : State) :
    (s.storeWord n w).sc.resetHeld = s.sc.resetHeld := by
  cases n
  case keycfg => exact State.setContext_resetHeld ..
  case enable =>
    rw [State.storeWord, State.takeEnable_eq]
    rfl
  all_goals rfl

theorem State.writeData_released {s : State} (hrel : s.sc.resetHeld = false) (addr : BitVec 6) (w : Word16) :
    (s.writeData addr w).sc.resetHeld = false := by
  have hend : s.endTransaction.sc.resetHeld = false := hrel
  rw [State.writeData]
  split
  · exact hend
  split
  · exact hend
  · exact hend
  · exact hend
  · split
    · rw [State.storeWord_resetHeld, hend]
    · exact hend
  · split
    · exact hend
    · rw [State.storeWord_resetHeld, hend]
  · rw [State.codeWrite_resetHeld, hend]
  · rfl

theorem State.beginRead_resetHeld (addr : BitVec 6) (s : State) : (s.beginRead addr).sc.resetHeld = s.sc.resetHeld := by
  rw [State.beginRead_eq]
  rfl

theorem State.endRead_resetHeld (s : State) : s.endRead.sc.resetHeld = s.sc.resetHeld := by
  have hcontext : ∀ t : State, t.completeContext.sc.resetHeld = t.sc.resetHeld := by
    intro t
    rw [State.completeContext]
    split <;> rfl
  rw [State.endRead, hcontext, State.completeAttn]
  split <;> rfl

theorem State.portEvent_clock {s : State} {bits : List Bool} (h : s.sc.port = some bits) (bit : Bool) :
    s.portEvent (.clock bit)
      = State.takeHeader (bits ++ [bit]) { s with sc := { s.sc with port := some (bits ++ [bit]) } } := by
  rw [State.portEvent.eq_def, h]

theorem State.portEvent_clock_idle {s : State} (h : s.sc.port = none) (bit : Bool) : s.portEvent (.clock bit) = s := by
  rw [State.portEvent.eq_def, h]

theorem State.portEvent_rise {s : State} {bits : List Bool} (h : s.sc.port = some bits) :
    s.portEvent .rise = State.endOfBits bits { s with sc := { s.sc with port := none } } := by
  rw [State.portEvent.eq_def, h]

theorem State.portEvent_rise_idle {s : State} (h : s.sc.port = none) : s.portEvent .rise = s := by
  rw [State.portEvent.eq_def, h]

theorem State.portEvent_released {s : State} (hrel : s.sc.resetHeld = false) (e : PortEvent) :
    (s.portEvent e).sc.resetHeld = false := by
  cases e with
  | fall => exact hrel
  | clock bit =>
    cases hport : s.sc.port with
    | none => rwa [State.portEvent_clock_idle hport]
    | some bits =>
      rw [State.portEvent_clock hport, State.takeHeader]
      split
      · exact (State.beginRead_resetHeld ..).trans hrel
      · exact hrel
  | rise =>
    cases hport : s.sc.port with
    | none => rwa [State.portEvent_rise_idle hport]
    | some bits =>
      rw [State.portEvent_rise hport, State.endOfBits]
      split
      · split
        · exact (State.endRead_resetHeld _).trans hrel
        · exact State.writeData_released (s := { s with sc := { s.sc with port := none } }) hrel _ _
      · exact hrel

theorem State.portEvents_released (lines : List PortEvent) {s : State} (hrel : s.sc.resetHeld = false) :
    (lines.foldl State.portEvent s).sc.resetHeld = false := by
  induction lines generalizing s with
  | nil => exact hrel
  | cons e lines ih => exact ih (State.portEvent_released hrel e)

/-! ## The bits of a transaction -/

theorem numberOfBits_lt (bits : List Bool) : numberOfBits bits < 2 ^ bits.length := by
  induction bits with
  | nil => decide
  | cons b rest ih =>
    have hb := b.toNat_le
    rw [numberOfBits_cons, List.length_cons, Nat.pow_succ]
    nlinarith

/-- The eighth bit of 24, most significant first, is bit 16 of their number. -/
theorem numberOfBits_testBit_sixteen {bits : List Bool} (hlen : bits.length = 24) {b : Bool} (hb : bits[7]? = some b) :
    (BitVec.ofNat 24 (numberOfBits bits)).getLsbD 16 = b := by
  obtain ⟨h7, hget⟩ := List.getElem?_eq_some_iff.1 hb
  have hsplit : bits = bits.take 7 ++ (b :: bits.drop 8) := by
    rw [← hget, ← List.drop_eq_getElem_cons h7, List.take_append_drop]
  have hrest : (bits.drop 8).length = 16 := by rw [List.length_drop, hlen]
  have hlow := numberOfBits_lt (bits.drop 8)
  rw [hrest] at hlow
  have hb1 := b.toNat_le
  rw [hsplit, numberOfBits_append, List.length_cons, numberOfBits_cons, hrest, BitVec.getLsbD_ofNat,
    Nat.testBit_eq_decide_div_mod_eq, show decide (16 < 24) = true from rfl, Bool.true_and]
  refine Eq.trans ?_ (decide_toNat_eq_one b)
  congr 2
  omega

/-- R173: the header of a transaction, eight bits, is its read bit, its address and its fixed bit. -/
theorem numberOfBits_header (read : Bool) (addr : BitVec 6) (bit : Bool) :
    numberOfBits (read :: [5, 4, 3, 2, 1, 0].map addr.getLsbD ++ [bit]) = 128 * read.toNat + 2 * addr.toNat + bit.toNat := by
  have haddr : numberOfBits ([5, 4, 3, 2, 1, 0].map addr.getLsbD) = addr.toNat := by
    rw [show [5, 4, 3, 2, 1, 0] = (List.range 6).reverse by decide, numberOfBits_getLsbD, Nat.mod_eq_of_lt addr.isLt]
  have hbit : numberOfBits [bit] = bit.toNat := (numberOfBits_cons bit []).trans (Nat.mul_one _)
  rw [numberOfBits_append, numberOfBits_cons, haddr, hbit, List.length_map, List.length_singleton]
  simp only [List.length_cons, List.length_nil]
  omega

theorem numberOfBits_transaction (read : Bool) (addr : BitVec 6) (data : Word16) :
    numberOfBits (read :: [5, 4, 3, 2, 1, 0].map addr.getLsbD ++ false :: (List.range 16).reverse.map data.getLsbD)
      = 8388608 * read.toNat + 131072 * addr.toNat + data.toNat := by
  have hheader := numberOfBits_header read addr false
  have hdata : numberOfBits ((List.range 16).reverse.map data.getLsbD) = data.toNat := by
    rw [numberOfBits_getLsbD, Nat.mod_eq_of_lt data.isLt]
  rw [List.append_cons, numberOfBits_append, hheader, hdata, List.length_map, List.length_reverse, List.length_range,
    Bool.toNat_false]
  omega

/-! ## The rows of the port's lines -/

theorem exec_lines (lines : List PortEvent) {s : State} (hrel : s.sc.resetHeld = false) :
    exec (.transactionAbandoned lines none) s = .next (lines.foldl State.portEvent s) := whenReleased_of_released _ _ hrel

/-- Levels and clocks may come in parts. -/
theorem exec_lines_append {s t : State} (hrel : s.sc.resetHeld = false) (a b : List PortEvent) (ended : Option Abandonment)
    (ht : exec (.transactionAbandoned a none) s = .next t) :
    exec (.transactionAbandoned (a ++ b) ended) s = exec (.transactionAbandoned b ended) t := by
  rw [exec_lines a hrel] at ht
  cases ht
  rw [exec, execTransactionAbandoned, whenReleased_of_released _ _ hrel, exec, execTransactionAbandoned,
    whenReleased_of_released _ _ (State.portEvents_released a hrel), State.abandon.eq_def, State.abandon.eq_def,
    List.foldl_append]

/-- R157: an abandoned transaction of a count of bits other than 24, or with a fixed bit of 1. -/
theorem completeTransaction_false {nbits : Nat} {bits : BitVec 24} (h : nbits ≠ 24 ∨ bits.getLsbD 16 = true) :
    completeTransaction nbits bits = false := by
  rw [completeTransaction]
  rcases h with h | h
  · rw [beq_false_of_ne h, Bool.false_and]
  · rw [h, Bool.not_true, Bool.and_false]

theorem State.endOfBits_abandoned {bits : List Bool} (h : bits.length ≠ 24 ∨ bits[7]? = some true) (s : State) :
    s.endOfBits bits = s.endTransaction := by
  have hno : completeTransaction bits.length (BitVec.ofNat 24 (numberOfBits bits)) = false := by
    by_cases hlen : bits.length = 24
    · exact completeTransaction_false (.inr (numberOfBits_testBit_sixteen hlen (h.resolve_left (not_not_intro hlen))))
    · exact completeTransaction_false (.inl hlen)
  rw [State.endOfBits, hno]
  exact if_neg Bool.false_ne_true

theorem State.takeHeader_other {bits : List Bool} (h : bits.length ≠ 8 ∨ bits.headD false = false) (s : State) :
    s.takeHeader bits = s := by
  refine if_neg fun ⟨hlen, hread⟩ => ?_
  rcases h with h | h
  · exact h hlen
  · rw [h] at hread
    exact Bool.false_ne_true hread

/-- R158: the eighth bit of a read captures the word its header addresses. -/
theorem State.takeHeader_read (addr : BitVec 6) (bit : Bool) (s : State) :
    s.takeHeader (true :: [5, 4, 3, 2, 1, 0].map addr.getLsbD ++ [bit]) = s.beginRead addr := by
  have haddr : BitVec.ofNat 6 (numberOfBits (true :: [5, 4, 3, 2, 1, 0].map addr.getLsbD ++ [bit]) / 2) = addr := by
    refine BitVec.eq_of_toNat_eq ?_
    have hlt := addr.isLt
    have hbit := bit.toNat_le
    rw [numberOfBits_header, BitVec.toNat_ofNat, Bool.toNat_true]
    omega
  rw [State.takeHeader, haddr]
  exact if_pos ⟨rfl, rfl⟩

/-- The fields of a transaction's 24 bits (R173). -/
theorem transaction_fields {read : Bool} {addr : BitVec 6} {data : Word16} {word : BitVec 24}
    (h : word = BitVec.ofNat 24 (8388608 * read.toNat + 131072 * addr.toNat + data.toNat)) :
    word.getLsbD 16 = false ∧ word.getLsbD 23 = read ∧ word.extractLsb' 17 6 = addr ∧ word.extractLsb' 0 16 = data := by
  have hread := read.toNat_le
  have haddr := addr.isLt
  have hdata := data.isLt
  have hword : word.toNat = 8388608 * read.toNat + 131072 * addr.toNat + data.toNat := by
    rw [h, BitVec.toNat_ofNat]
    omega
  refine ⟨?_, ?_, BitVec.eq_of_toNat_eq ?_, BitVec.eq_of_toNat_eq ?_⟩
  · rw [BitVec.getLsbD, Nat.testBit_eq_decide_div_mod_eq, hword, decide_eq_false]
    omega
  · rw [BitVec.getLsbD, Nat.testBit_eq_decide_div_mod_eq, hword]
    refine Eq.trans ?_ (decide_toNat_eq_one read)
    congr 2
    omega
  · rw [BitVec.extractLsb'_toNat, hword, Nat.shiftRight_eq_div_pow]
    omega
  · rw [BitVec.extractLsb'_toNat, hword, Nat.shiftRight_zero]
    omega

theorem State.endOfBits_complete (read : Bool) (addr : BitVec 6) (data : Word16) (s : State) :
    s.endOfBits (read :: [5, 4, 3, 2, 1, 0].map addr.getLsbD ++ false :: (List.range 16).reverse.map data.getLsbD)
      = if read then s.endRead else s.writeData addr data := by
  have hnumber := numberOfBits_transaction read addr data
  obtain ⟨hfixed, hread, haddr, hdata⟩ := transaction_fields (congrArg (BitVec.ofNat 24) hnumber)
  have hlen : (read :: [5, 4, 3, 2, 1, 0].map addr.getLsbD
      ++ false :: (List.range 16).reverse.map data.getLsbD).length = 24 := by simp
  rw [State.endOfBits, completeTransaction, hlen, hfixed, hread, haddr, hdata]
  rfl

/-- R158: what the end of a read clears, by what it captured. -/
theorem State.endRead_eq (s : State) : s.endRead = match s.sc.capture with
    | some (.attn _) => s.completeAttn
    | some (.context _) => s.completeContext
    | none => s := by
  have hnone : s.sc.capture = none → s.completeAttn = s := fun h => by rw [State.completeAttn, h]
  rw [State.endRead]
  cases h : s.sc.capture with
  | none =>
    rw [hnone h, State.completeContext, h]
  | some c =>
    cases c with
    | attn k =>
      rw [State.completeAttn_of_capture h]
      rfl
    | context k =>
      have hstay : s.completeAttn = s := by rw [State.completeAttn, h]
      rw [hstay]

/-- Settles O34: each event of the lines by what it does to the port. -/
theorem ignoredTransactionsDoNothing : Obligations.IgnoredTransactionsDoNothing := by
  refine ⟨fun how nbits bits s hrel hhow => ?_, fun s hrel => ⟨fun a b ended t => exec_lines_append hrel a b ended,
    exec_lines [.fall] hrel, fun hport bit => ⟨?_, ?_⟩, fun bits bit hport hbits => ?_, fun addr bit hport => ?_,
    fun bits hport hbits => ?_, fun addr data read u hport hu => ?_⟩, fun addr data code arg m s hrel hpart c hc => ?_,
    fun addr data s hrel hacc => ?_⟩
  · rw [exec, execTransactionAbandoned, whenReleased_of_released _ _ hrel]
    rcases hhow with rfl | ⟨rfl, hbits⟩
    · rfl
    · exact congrArg _ (if_neg (by rw [completeTransaction_false hbits]; exact Bool.false_ne_true))
  · rw [exec_lines _ hrel]
    exact congrArg _ (State.portEvent_clock_idle hport bit)
  · rw [exec_lines _ hrel]
    exact congrArg _ (State.portEvent_rise_idle hport)
  · rw [exec_lines _ hrel]
    refine congrArg _ ((State.portEvent_clock hport bit).trans (State.takeHeader_other ?_ _))
    rcases hbits with hlen | hwrite
    · left
      rw [List.length_append, List.length_singleton]
      omega
    · right
      rw [List.headD_eq_head?_getD, List.head?_append, hwrite]
      rfl
  · rw [exec_lines _ hrel]
    refine congrArg _ ((State.portEvent_clock hport bit).trans ?_)
    rw [State.takeHeader_read, State.beginRead_eq]
    rfl
  · rw [exec_lines _ hrel]
    exact congrArg _ ((State.portEvent_rise hport).trans (State.endOfBits_abandoned hbits _))
  · have hrise : exec (.transactionAbandoned [.rise] none) s
        = .next (if read then u.endRead else u.writeData addr data) := by
      rw [exec_lines _ hrel, hu]
      exact congrArg _ ((State.portEvent_rise hport).trans (State.endOfBits_complete ..))
    have hrel' : u.sc.resetHeld = false := by rw [hu]; exact hrel
    have hcapture : s.sc.capture = u.sc.capture := by rw [hu]
    rw [hrise, hcapture]
    cases read with
    | false => exact (exec_writeWord addr data hrel').symm
    | true =>
      refine (congrArg Host.Outcome.next u.endRead_eq).trans ?_
      cases u.sc.capture with
      | none => rfl
      | some c =>
        cases c with
        | attn k => exact (exec_attn .complete hrel').symm
        | context k => exact (exec_context .complete hrel').symm
  · have hcommand : ∀ c : Command, exec (c.row arg) s = .next s.endTransaction := fun c => by
      rw [exec_command c arg hrel, State.commandWrite, if_pos hpart]
    simp only [List.mem_cons, List.not_mem_nil, or_false] at hc
    rcases hc with rfl | rfl | rfl | rfl | rfl | rfl | rfl | rfl | rfl | rfl | rfl | rfl | rfl | rfl
    · rw [exec_writeWord addr data hrel, State.writeData_init hpart]
      rfl
    · rw [exec_keycfg data hrel, State.writeData_init hpart]
      rfl
    · rw [exec_enable data hrel, State.writeData_init hpart]
      rfl
    · rw [exec_mute m hrel, State.writeData_init hpart]
      rfl
    · rw [exec_attnMask data hrel, State.writeData_init hpart]
      rfl
    · exact hcommand .go
    · exact hcommand .calibrateLong
    · exact hcommand .calibrateShort
    · exact hcommand .standby
    · exact hcommand .wake
    · exact hcommand .pin
    · exact hcommand .unpin
    · exact hcommand .clear
    · rw [exec_unknownCode code arg hrel, State.codeWrite]
      split
      · exact congrArg _ (if_pos hpart)
      · exact congrArg _ (if_pos hpart)
  · rw [exec_writeWord addr data hrel, State.writeData_ignored s hacc]
    rfl

end Sys2Proof.Machine
end

section
/-! PROOFS. The events of one voice and of a hop's counts, as rows of their own (R11, R37 to R43, R51, R75 to R77, R88, R109 to R111,
R122, R123, R132 to R142). -/

namespace Sys2Proof.Machine

/-! ## The rows of one voice -/

theorem exec_epoch (v : VoiceIx) {s : State} (hrel : s.sc.resetHeld = false) :
    exec (.epoch v) s = .next (s.putVoice v (s.voices[v].epochDue s.renderEnv)) := by
  rw [exec, execEpoch, whenReleased_of_released _ _ hrel]

theorem exec_grainEnd (v : VoiceIx) {s : State} (hrel : s.sc.resetHeld = false) :
    exec (.grainEnd v) s = .next (s.setVoice v s.voices[v].endGrains) := by
  rw [exec, execGrainEnd, whenReleased_of_released _ _ hrel]

theorem exec_attackComplete (v : VoiceIx) {s : State} (hrel : s.sc.resetHeld = false) :
    exec (.attackComplete v) s = .next (s.setVoice v s.voices[v].attackComplete) := by
  rw [exec, execAttackComplete, whenReleased_of_released _ _ hrel]

theorem exec_fadeEnd (v : VoiceIx) {s : State} (hrel : s.sc.resetHeld = false) :
    exec (.fadeEnd v) s = .next (s.setVoice v s.voices[v].fadeEnd) := by
  rw [exec, execFadeEnd, whenReleased_of_released _ _ hrel]

theorem exec_holdLimit (v : VoiceIx) {s : State} (hrel : s.sc.resetHeld = false) :
    exec (.holdLimit v) s = .next (s.putVoice v (s.voices[v].holdLimitDue s.cfg.holdLimit)) :=
  by
  rw [exec, execHoldLimit, whenReleased_of_released _ _ hrel]

theorem exec_returnToPrimary (v : VoiceIx) {s : State} (hrel : s.sc.resetHeld = false) :
    exec (.returnToPrimary v) s
      = .next (if s.voices[v].returnDue s.cfg.settle then s.setVoice v s.voices[v].takePrimary else s) :=
  by
  rw [exec, execReturnToPrimary, whenReleased_of_released _ _ hrel]

theorem exec_firming (v : VoiceIx) {s : State} (hrel : s.sc.resetHeld = false) :
    exec (.firming v) s = .next ((s.setVoice v (s.voices[v].firmDue s.cfg.settle v).1).offerSome
      (s.voices[v].firmDue s.cfg.settle v).2) := by
  rw [exec, execFirming, whenReleased_of_released _ _ hrel]

theorem exec_claimRefresh (v : VoiceIx) {s : State} (hrel : s.sc.resetHeld = false) :
    exec (.claimRefresh v) s = .next ((s.setVoice v (s.voices[v].refreshDue s.cfg.refresh v).1).offerSome
      (s.voices[v].refreshDue s.cfg.refresh v).2) := by
  rw [exec, execClaimRefresh, whenReleased_of_released _ _ hrel]

/-- A voice put back as it stands, without a DROP. -/
theorem State.putVoice_self (s : State) (v : VoiceIx) : s.putVoice v (s.voices[v], false) = s := s.setVoice_self v

/-! ## Epochs -/

/-- R142: a grain joins the list, the oldest of four ended and counted. -/
theorem Engine.addGrain_eq (e : Engine) (g : Grain) : e.addGrain g = { e with
    grains := (if e.grains.length < 4 then e.grains else e.grains.tail) ++ [g]
    cut := if e.grains.length < 4 then e.cut else min 255 (e.cut + 1) } := by
  rw [Engine.addGrain, List.drop_one]
  split <;> rfl

theorem Voice.startGrain_of_mark {env : RenderEnv} {m : Mark} (h : sourceMark env.history.newest env.marks = some m) (vo : Voice) :
    vo.startGrain env = ({ vo with eng := vo.eng.addGrain m.grain }, false) := by
  rw [Voice.startGrain, h]

theorem Voice.startGrain_of_none {env : RenderEnv} (h : sourceMark env.history.newest env.marks = none) (vo : Voice) :
    vo.startGrain env = vo.starved := by
  rw [Voice.startGrain, h]

theorem Voice.epochDue_of_due {env : RenderEnv} {vo : Voice} (hruns : vo.eng.runsEpochs = true) (hdue : vo.eng.epoch ≤ 0) :
    vo.epochDue env = Voice.startGrain env { vo with eng := { vo.eng with epoch := vo.eng.epoch + vo.eng.reload } } :=
  if_pos ⟨hruns, hdue⟩

theorem Engine.runsEpochs_of_sounding {e : Engine} (h : e.state.sounding = true) : e.runsEpochs = true := by
  rw [Engine.runsEpochs, h, Bool.true_or]

theorem Voice.starved_of_onset_sound {vo : Voice} (h : vo.eng.state = .onset ∨ vo.eng.state = .sound) :
    vo.starved = ({ vo with eng := { vo.eng with starve := min 255 (vo.eng.starve + 1) } }, false) := by
  rw [Voice.starved]
  rcases h with h | h <;> rw [h] <;> rfl

theorem Voice.starved_of_hold {vo : Voice} (h : vo.eng.state = .hold) :
    vo.starved = ({ vo.withoutClaim with
      eng := { vo.eng with state := .fade, starve := min 255 (vo.eng.starve + 1) } }, true) := by
  rw [Voice.starved, h]
  rfl

theorem Voice.starved_of_fade {vo : Voice} (h : vo.eng.state = .fade) : vo.starved = (vo, false) := by
  rw [Voice.starved, h]

/-- Settles O14: an epoch that is due, by the source mark and the voice's state. -/
theorem epochStartsGrainOrStarves : Obligations.EpochStartsGrainOrStarves := by
  refine ⟨fun v m s hrel hruns hdue hmark => ?_, fun v s hrel hdue hnone => ?_⟩
  · rw [exec_epoch v hrel, Voice.epochDue_of_due hruns hdue, Voice.startGrain_of_mark (env := s.renderEnv) hmark, Engine.addGrain_eq]
    rfl
  · have hstarves : s.voices[v].eng.runsEpochs = true → exec (.epoch v) s = .next (s.putVoice v (Voice.starved
        { s.voices[v] with eng := { s.voices[v].eng with epoch := s.voices[v].eng.epoch + s.voices[v].eng.reload } })) := by
      intro hruns
      rw [exec_epoch v hrel, Voice.epochDue_of_due hruns hdue, Voice.startGrain_of_none (env := s.renderEnv) hnone]
    refine ⟨fun hstate => ?_, fun hstate => ?_, fun hstate henv => ?_⟩
    · have hruns := Engine.runsEpochs_of_sounding (e := s.voices[v].eng) (by rcases hstate with h | h <;> rw [h] <;> rfl)
      rw [hstarves hruns, Voice.starved_of_onset_sound (by exact hstate)]
      rfl
    · have hruns := Engine.runsEpochs_of_sounding (e := s.voices[v].eng) (by rw [hstate]; rfl)
      rw [hstarves hruns, Voice.starved_of_hold (by exact hstate)]
      rfl
    · have hruns : s.voices[v].eng.runsEpochs = true := by
        rw [Engine.runsEpochs, hstate, decide_eq_true henv]
        rfl
      rw [hstarves hruns, Voice.starved_of_fade (by exact hstate)]
      rfl

/-! ## Claims -/

/-- Settles O17: each event once its count has been reached. -/
theorem returnFirmingAndRefresh : Obligations.ReturnFirmingAndRefresh := by
  refine ⟨fun v s hrel hclaim hon hfree => ?_, fun v c s hrel hclaim => ⟨fun hsoft hsettle => ?_, fun hrefresh => ?_⟩⟩
  · have hdue : s.voices[v].returnDue s.cfg.settle = true := by
      rw [Voice.returnDue, Option.isSome_iff_ne_none.2 hclaim, hon, decide_eq_true hfree]
      rfl
    rw [exec_returnToPrimary v hrel, if_pos hdue]
    rfl
  · have hfirm : s.voices[v].firmDue s.cfg.settle v = (s.voices[v].withClaim { c with firm := true },
        some (s.voices[v].claimEntry v { c with firm := true })) := by
      rw [Voice.firmDue, hclaim]
      exact if_pos ⟨hsoft, hsettle⟩
    rw [exec_firming v hrel, hfirm]
    rfl
  · have hdue : s.voices[v].refreshDue s.cfg.refresh v = (s.voices[v].withClaim c, some (s.voices[v].claimEntry v c)) := by
      rw [Voice.refreshDue, hclaim]
      exact if_pos hrefresh
    have hsame : s.voices[v].withClaim c
        = { s.voices[v] with plan := { s.voices[v].plan with refreshCount := 0 } } := by
      rw [Voice.withClaim, ← hclaim]
    rw [exec_claimRefresh v hrel, hdue, hsame]
    rfl

/-! ## A measurement -/

/-- R11: the offset and the clamp flag of a completed measurement. -/
theorem InputStage.complete_eq (i : InputStage) (m : Measurement) : i.complete m = { i with
    offset := max (-524287) (min 524287 m.mean)
    calClamped := i.calClamped || decide (524287 < m.mean.natAbs) } := by
  rw [InputStage.complete]
  by_cases hhigh : 524287 < m.mean
  · rw [if_pos hhigh, decide_eq_true (by omega), Bool.or_true]
    congr 1
    omega
  · rw [if_neg hhigh]
    by_cases hlow : m.mean < -524287
    · rw [if_pos hlow, decide_eq_true (by omega), Bool.or_true]
      congr 1
      omega
    · rw [if_neg hlow, decide_eq_false (by omega), Bool.or_false]
      congr 1
      omega

/-- R11: a measurement that has reached its length. -/
theorem State.measurementDue_of_reached {s : State} {m : Measurement} (hm : s.inp.measurement = some m)
    (h : m.length ≤ m.taken) : s.measurementDue = { s with
      inp := { s.inp with
        measurement := none
        offset := max (-524287) (min 524287 m.mean)
        calClamped := s.inp.calClamped || decide (524287 < m.mean.natAbs) }
      sc := { s.sc with
        part := .setup, causes := s.sc.causes ||| 0x20, capture := s.sc.capture.map (Capture.keepRaised .done) } } := by
  rw [State.measurementDue, hm]
  dsimp only
  rw [if_pos h, State.endCalibration, InputStage.complete_eq]
  rfl

theorem State.measurementDue_idle {s : State} (h : ∀ m, s.inp.measurement = some m → m.taken < m.length) :
    s.measurementDue = s := by
  rw [State.measurementDue]
  split
  case h_1 m hm => exact if_neg (h m hm).not_ge
  case h_2 => rfl

theorem exec_measurementCompletes {s : State} (hrel : s.sc.resetHeld = false) :
    exec .measurementCompletes s = .next s.measurementDue := by
  rw [exec, execMeasurementCompletes, whenReleased_of_released _ _ hrel]

/-- Settles O13: the offset is the clamped mean in each of its three ranges. -/
theorem measurementSetsOffset : Obligations.MeasurementSetsOffset := by
  intro m s hrel hm hreached _
  rw [exec_measurementCompletes hrel, State.measurementDue_of_reached hm hreached]
  rfl

end Sys2Proof.Machine
end

section
/-! PROOFS. The rows of a hop's counts, the key decision as an event, and the rows whose condition does not stand (R37 to R43, R51,
R89, R109 to R111). -/

namespace Sys2Proof.Machine

/-! ## The rows of a hop's counts -/

theorem exec_holdLength {s : State} (hrel : s.sc.resetHeld = false) :
    exec .holdLength s = .next s.holdLengthEvent := by
  rw [exec, execHoldLength, whenReleased_of_released _ _ hrel]

theorem exec_decisionHop {s : State} (hrel : s.sc.resetHeld = false) :
    exec .decisionHop s = .next s.decisionEvent := by
  rw [exec, execDecisionHop, whenReleased_of_released _ _ hrel]

theorem exec_periodicLead {s : State} (hrel : s.sc.resetHeld = false) :
    exec .periodicLead s = .next s.periodicLeadDue := by
  rw [exec, execPeriodicLead, whenReleased_of_released _ _ hrel]

theorem exec_periodicKey {s : State} (hrel : s.sc.resetHeld = false) :
    exec .periodicKey s = .next s.periodicKeyDue := by
  rw [exec, execPeriodicKey, whenReleased_of_released _ _ hrel]

theorem exec_quietHello {s : State} (hrel : s.sc.resetHeld = false) :
    exec .quietHello s = .next s.quietHelloDue := by
  rw [exec, execQuietHello, whenReleased_of_released _ _ hrel]

/-- R37, R38: the end of the hold. -/
theorem State.holdLengthEnd_of_past {s : State} {n : Nat} (hheld : s.cu.held = some n) (h : 8 < s.cu.holdCount) :
    s.holdLengthEnd = State.clearFreeCounts { s with cu := { s.cu with held := none, holdCount := 0 } } := by
  rw [State.holdLengthEnd, if_pos ⟨by rw [hheld]; rfl, h⟩, State.setHeld]
  exact if_neg (by rw [hheld]; exact nofun)

theorem State.holdLengthEnd_idle {s : State} (h : s.cu.held = none ∨ s.cu.holdCount ≤ 8) : s.holdLengthEnd = s := by
  refine if_neg fun ⟨hsome, hpast⟩ => ?_
  rcases h with h | h
  · rw [h] at hsome
    exact Bool.false_ne_true hsome
  · omega

/-- Settles O19: each count at its limit. -/
theorem hopCountsBringTheirOffers : Obligations.HopCountsBringTheirOffers := by
  refine ⟨fun n s hrel hheld hpast => ?_, fun s hrel => ⟨fun hcount hvoiced => ?_, fun hcount => ?_, fun hcount => ?_⟩⟩
  · rw [exec_holdLength hrel, State.holdLengthEvent, State.holdLengthEnd_of_past hheld hpast]
    refine congrArg _ ((if_neg ?_).trans rfl)
    rw [hheld]
    show ¬(none = some n)
    exact nofun
  · rw [exec_periodicLead hrel]
    exact congrArg _ (if_pos ⟨hcount, hvoiced⟩)
  · rw [exec_periodicKey hrel]
    exact congrArg _ (if_pos hcount)
  · rw [exec_quietHello hrel]
    exact congrArg _ (if_pos hcount)

/-! ## Changes of context -/

theorem State.setContext_same {s : State} {key : Key} {mode : KeyMode} (openD : Bool) (hkey : key = s.cu.key)
    (hmode : mode = s.cu.mode) : s.setContext key mode openD = { s with cu := { s.cu with openDecision := openD } } := by
  rw [State.setContext, if_pos ⟨hkey, hmode⟩, hkey, hmode]

/-- R51, R89, R110: a change of context outside a hop, as one change of the state. -/
theorem State.setContext_of_change {s : State} {key : Key} {mode : KeyMode} (openD : Bool)
    (h : key ≠ s.cu.key ∨ mode ≠ s.cu.mode) : s.setContext key mode openD = { s with
      cu := { s.cu with key := key, mode := mode, openDecision := openD, changed := true }
      sc := s.sc.raising 0x10
      voices := s.clearFreeCounts.voices
      link := { s.link.offer .key with keyCount := 0 } } := by
  have hchange : ¬(key = s.cu.key ∧ mode = s.cu.mode) := fun ⟨hkey, hmode⟩ => h.elim (· hkey) (· hmode)
  rw [State.setContext]
  dsimp only
  rw [if_neg hchange, State.contextChange, State.noteContextChange_eq]
  rfl

theorem State.clearFreeCounts_get (s : State) (v : VoiceIx) : s.clearFreeCounts.voices[v]
    = { s.voices[v] with plan := { s.voices[v].plan with freeCount := 0 } } := State.mapVoices_get ..

/-- Settles O22: the change as one change of the state, block by block. -/
theorem contextChangeIsReported : Obligations.ContextChangeIsReported := by
  refine fun key mode openD s => ⟨State.setContext_same openD, fun h => ?_⟩
  rw [State.setContext_of_change openD h]
  exact ⟨rfl, rfl, rfl, s.clearFreeCounts_get, rfl, rfl, rfl, rfl, rfl, rfl, rfl, rfl⟩

/-! ## The key decision -/

theorem bestKey_of_tie {tally : Vector Nat 12} {b : Fin 12} (hmax : ∀ k, score tally k ≤ score tally b) :
    bestKey tally (some b) = b := by
  refine if_pos (Nat.le_antisymm ?_ (hmax _))
  obtain ⟨c, hc, hlow⟩ : ∃ c, (∀ k, score tally k ≤ score tally c) ∧ ∀ k, k < c → score tally k < score tally c := by
    have hexists : ∃ n, ∃ hn : n < 12, ∀ k, score tally k ≤ score tally ⟨n, hn⟩ := ⟨b.val, b.isLt, hmax⟩
    classical
    obtain ⟨hn, hfirst⟩ := Nat.find_spec hexists
    refine ⟨⟨Nat.find hexists, hn⟩, hfirst, fun k hk => (hfirst k).lt_of_ne fun heq => ?_⟩
    exact Nat.find_min hexists (m := k.val) hk ⟨k.isLt, fun j => heq ▸ hfirst j⟩
  rw [bestLowest_eq hc hlow]
  exact hc b

/-- R43: an open decision takes the best key outright. -/
theorem openDecisionKey_eq {tally : Vector Nat 12} {key : Key} {b : Fin 12} (hmax : ∀ k, score tally k ≤ score tally b)
    (h : (key.kind = .major ∧ b = key.pc) ∨ ((key.kind ≠ .major ∨ score tally key.pc < score tally b)
      ∧ ∀ k, k < b → score tally k < score tally b)) : openDecisionKey tally key = { pc := b, kind := .major } := by
  rw [openDecisionKey]
  rcases h with ⟨hmajor, rfl⟩ | ⟨hloses, hlow⟩
  · rw [if_pos hmajor, bestKey_of_tie hmax]
  · by_cases hmajor : key.kind = .major
    · rw [if_pos hmajor, bestKey_some_of_lt (hloses.resolve_left (not_not_intro hmajor)) hmax hlow]
    · rw [if_neg hmajor, bestKey, bestLowest_eq hmax hlow]

theorem ContextUnit.atDecision_auto {c : ContextUnit} (h : c.mode = .auto) :
    c.atDecision = { c with decisionCount := 0, key := c.decide, openDecision := false } := by
  rw [ContextUnit.atDecision, h]

theorem ContextUnit.atDecision_pinned {c : ContextUnit} (h : c.mode ≠ .auto) :
    c.atDecision = { c with decisionCount := 0 } := by
  rw [ContextUnit.atDecision]
  cases hmode : c.mode with
  | auto => exact absurd hmode h
  | pinnedLocal => rfl
  | pinnedPeer p => rfl

/-- R41, R51: a decision hop as one change of the state. -/
theorem State.decisionDue_of_due {s : State} (h : 16 ≤ s.cu.decisionCount) : s.decisionDue = { s with
    cu := { s.cu.atDecision with changed := s.cu.changed || decide (s.cu.atDecision.key ≠ s.cu.key) }
    sc := if s.cu.atDecision.key = s.cu.key then s.sc else s.sc.raising 0x10
    voices := if s.cu.atDecision.key = s.cu.key then s.voices else s.clearFreeCounts.voices } := by
  have hchanged : s.cu.atDecision.changed = s.cu.changed := by
    rw [ContextUnit.atDecision]
    split <;> rfl
  rw [State.decisionDue, if_pos h]
  dsimp only
  by_cases hkey : s.cu.atDecision.key = s.cu.key
  · rw [if_pos hkey, if_pos hkey, if_pos hkey, decide_eq_false (not_not_intro hkey), Bool.or_false, ← hchanged]
  · rw [if_neg hkey, if_neg hkey, if_neg hkey, decide_eq_true hkey, Bool.or_true, State.noteContextChange_eq]
    rfl

theorem State.decisionDue_idle {s : State} (h : s.cu.decisionCount < 16) : s.decisionDue = s := if_neg h.not_ge

/-- Settles O21: the decision by the mode and the key it leaves. -/
theorem decisionHopDecidesInAuto : Obligations.DecisionHopDecidesInAuto := by
  intro s hrel hdue
  have hexec : exec .decisionHop s = .next (if s.cu.atDecision.key = s.cu.key then s.decisionDue else s.decisionDue.offerKey) := by
    rw [exec_decisionHop hrel, State.decisionEvent]
    congr 1
    rw [State.decisionDue_of_due hdue]
  rw [hexec, State.decisionDue_of_due hdue]
  refine ⟨fun hmode => ?_, fun hmode hkey => ?_, fun hmode hkey => ?_, fun hopen => ?_, fun hopen b hmax hb => ?_⟩
  · have hsame : s.cu.atDecision.key = s.cu.key := by rw [ContextUnit.atDecision_pinned hmode]
    rw [if_pos hsame, if_pos hsame, if_pos hsame, decide_eq_false (not_not_intro hsame), Bool.or_false,
      ContextUnit.atDecision_pinned hmode]
  · have hsame : s.cu.atDecision.key = s.cu.key := by rw [ContextUnit.atDecision_auto hmode, hkey]
    rw [if_pos hsame, if_pos hsame, if_pos hsame, decide_eq_false (not_not_intro hsame), Bool.or_false,
      ContextUnit.atDecision_auto hmode, hkey]
  · have hne : ¬s.cu.atDecision.key = s.cu.key := by rwa [ContextUnit.atDecision_auto hmode]
    rw [if_neg hne, if_neg hne, if_neg hne, decide_eq_true hne, Bool.or_true, ContextUnit.atDecision_auto hmode]
    exact ⟨_, rfl, rfl, rfl, rfl, s.clearFreeCounts_get, rfl, rfl, rfl, rfl, rfl, rfl, rfl, rfl⟩
  · rw [ContextUnit.decide, hopen]
    rfl
  · rw [ContextUnit.decide, hopen]
    exact openDecisionKey_eq hmax hb

end Sys2Proof.Machine
end

section
/-! PROOFS. Rows whose condition does not stand change nothing (logs 3, 5, 14 to 16, 27). -/

namespace Sys2Proof.Machine

/-! ## The events of one voice -/

theorem Voice.epochDue_idle {env : RenderEnv} {vo : Voice} (h : vo.eng.runsEpochs = false ∨ 0 < vo.eng.epoch) :
    vo.epochDue env = (vo, false) := by
  refine if_neg fun ⟨hruns, hdue⟩ => ?_
  rcases h with h | h
  · exact Bool.false_ne_true (h.symm.trans hruns)
  · omega

theorem Voice.endGrains_idle {vo : Voice} (h : ∀ g ∈ vo.eng.grains, 0 < g.remaining) : vo.endGrains = vo := by
  rw [Voice.endGrains, List.filter_eq_self.2 fun g hg => decide_eq_true (h g hg)]

theorem Voice.attackComplete_idle {vo : Voice} (h : vo.eng.state ≠ .onset ∨ vo.eng.envelope < 32767) :
    vo.attackComplete = vo := by
  refine if_neg fun ⟨hstate, henv⟩ => ?_
  rcases h with h | h
  · exact h hstate
  · omega

theorem Voice.fadeEnd_idle {vo : Voice} (h : vo.eng.state ≠ .fade ∨ 0 < vo.eng.envelope ∨ vo.eng.grains ≠ []) :
    vo.fadeEnd = vo := by
  refine if_neg fun ⟨hstate, henv, hgrains⟩ => ?_
  rcases h with h | h | h
  · exact h hstate
  · omega
  · exact h hgrains

theorem Voice.holdLimitDue_idle {limit : Nat} {vo : Voice} (h : vo.eng.state ≠ .hold ∨ vo.eng.holdTimer < 256 * limit) :
    vo.holdLimitDue limit = (vo, false) := by
  refine if_neg fun ⟨hstate, htimer⟩ => ?_
  rcases h with h | h
  · exact h hstate
  · omega

theorem Voice.returnDue_idle {settle : Nat} {vo : Voice}
    (h : vo.plan.claim = none ∨ vo.plan.onAlternate = false ∨ vo.plan.freeCount < settle) : ¬vo.returnDue settle = true := by
  rw [Voice.returnDue, Bool.and_eq_true, Bool.and_eq_true, decide_eq_true_iff]
  rintro ⟨⟨hclaim, hon⟩, hfree⟩
  rcases h with h | h | h
  · rw [h] at hclaim
    exact Bool.false_ne_true hclaim
  · exact Bool.false_ne_true (h.symm.trans hon)
  · omega

theorem Voice.firmDue_idle {settle : Nat} (v : VoiceIx) {vo : Voice}
    (h : ∀ c, vo.plan.claim = some c → c.firm = true ∨ c.settle < settle) : vo.firmDue settle v = (vo, none) := by
  rw [Voice.firmDue]
  split
  case h_1 c hc =>
    refine if_neg fun ⟨hsoft, hsettle⟩ => ?_
    rcases h c hc with hfirm | hlt
    · exact Bool.false_ne_true (hsoft.symm.trans hfirm)
    · omega
  case h_2 => rfl

theorem Voice.refreshDue_idle {refresh : Nat} (v : VoiceIx) {vo : Voice}
    (h : vo.plan.claim = none ∨ vo.plan.refreshCount < refresh) : vo.refreshDue refresh v = (vo, none) := by
  rw [Voice.refreshDue]
  split
  case h_1 c hc =>
    refine if_neg fun hdue => ?_
    rcases h with h | h
    · rw [h] at hc
      exact absurd hc nofun
    · omega
  case h_2 => rfl

/-! ## The ages of the Peer Table -/

theorem State.claimAgeLimitDue_idle {s : State} {p : Station} {v : VoiceIx}
    (h : ∀ r, s.peers[p] = some r → ∀ c, r.claims[v] = some c → c.age ≤ 3 * s.cfg.refresh) :
    s.claimAgeLimitDue p v = s := by
  rw [State.claimAgeLimitDue]
  split
  case h_1 r hr =>
    split
    case h_1 c hc => exact if_neg (h r hr c hc).not_gt
    case h_2 => rfl
  case h_2 => rfl

theorem State.recordLimitDue_idle {s : State} {p : Station}
    (h : ∀ r, s.peers[p] = some r → r.silence ≤ min (4 * s.cfg.refresh) 255) : s.recordLimitDue p = s := by
  rw [State.recordLimitDue]
  split
  case h_1 r hr => exact if_neg (h r hr).not_gt
  case h_2 => rfl

/-! ## Hops and samples -/

theorem State.hopsFall_iff (s : State) : s.hopsFall = true ↔ s.sc.part ≠ .init := decide_eq_true_iff

/-- R6: no synced hop falls before a hop count of 256, with sync lost or in INIT. -/
theorem State.syncedHopDue_idle {s : State} (h : s.ap.hopCount < 256 ∨ s.ap.syncPresent = false ∨ s.sc.part = .init)
    (o : HopOrder) : s.syncedHopDue o = s := by
  refine if_neg fun ⟨hsync, hcount, hfalls⟩ => ?_
  rcases h with h | h | h
  · omega
  · exact Bool.false_ne_true (h.symm.trans hsync)
  · exact (State.hopsFall_iff s).1 hfalls h

theorem State.syncedHopDue_falls {s : State} (hsync : s.ap.syncPresent = true) (hcount : 256 ≤ s.ap.hopCount)
    (hpart : s.sc.part ≠ .init) (o : HopOrder) : s.syncedHopDue o = s.syncedHopWork o :=
  if_pos ⟨hsync, hcount, (State.hopsFall_iff s).2 hpart⟩

theorem State.settleHop_idle {s : State} (h : s.ap.hopCount < 256 ∨ s.ap.syncPresent = false ∨ s.sc.part = .init) :
    s.settleHop = s := State.syncedHopDue_idle h _

theorem exec_syncedHop (o : HopOrder) {s : State} (hrel : s.sc.resetHeld = false) :
    exec (.syncedHop o) s = .next (s.syncedHopDue o) := by
  rw [exec, execSyncedHop, whenReleased_of_released _ _ hrel]

theorem exec_freeHop (o : HopOrder) {s : State} (hrel : s.sc.resetHeld = false) :
    exec (.freeHop o) s = .next (s.freeHop o) := by
  rw [exec, execFreeHop, whenReleased_of_released _ _ hrel]

theorem exec_sampleReceived (slot : BitVec 32) (h : Option HopOrder) {s : State} (hrel : s.sc.resetHeld = false) :
    exec (.sampleReceived slot h) s = .next (s.sampleReceived slot h) := by
  rw [exec, execSampleReceived, whenReleased_of_released _ _ hrel]

theorem exec_frameSync {s : State} (hrel : s.sc.resetHeld = false) : exec .frameSync s = .next s.frameSync := by
  rw [exec, execFrameSync, whenReleased_of_released _ _ hrel]

theorem exec_syncLossEvent (leadFirst : Bool) {s : State} (hrel : s.sc.resetHeld = false) :
    exec (.syncLossEvent leadFirst) s = .next (s.monitorExpiry leadFirst) := by
  rw [exec, execSyncLossEvent, whenReleased_of_released _ _ hrel]

theorem State.freeHop_idle {s : State} (h : s.ap.freeTimer = false ∨ s.sc.part = .init) (o : HopOrder) : s.freeHop o = s := by
  refine if_neg fun ⟨htimer, hfalls⟩ => ?_
  rcases h with h | h
  · exact Bool.false_ne_true (h.symm.trans htimer)
  · exact (State.hopsFall_iff s).1 hfalls h

theorem State.sampleReceived_idle {s : State} (slot : BitVec 32) (o : Option HopOrder)
    (hhop : s.ap.hopCount < 256 ∨ s.ap.syncPresent = false ∨ s.sc.part = .init)
    (h : s.ap.slotOpen = false ∨ s.ap.syncPresent = false) : s.sampleReceived slot o = s := by
  rw [State.sampleReceived, State.settleHop_idle hhop]
  refine if_neg fun ⟨hopen, hsync⟩ => ?_
  rcases h with h | h
  · exact Bool.false_ne_true (h.symm.trans hopen)
  · exact Bool.false_ne_true (h.symm.trans hsync)

/-! ## The link -/

theorem LinkController.mayStart_idle {l : LinkController}
    (h : l.state ≠ .active ∨ l.queue = [] ∨ l.slot ≠ none ∨ l.receiver.isTaking = true) : ¬l.mayStart = true := by
  rw [LinkController.mayStart]
  rcases h with h | h | h | h
  · rw [decide_eq_false h]
    exact Bool.false_ne_true
  · rw [h]
    cases decide (l.state = .active) <;> exact Bool.false_ne_true
  · rw [Option.isNone_eq_false_iff.2 (Option.isSome_iff_ne_none.2 h), Bool.and_false, Bool.false_and]
    exact Bool.false_ne_true
  · rw [h, Bool.not_true, Bool.and_false]
    exact Bool.false_ne_true

/-- R92, R99, R160: a receiver that takes no frames takes no frame named as a whole; in SOLO it reads no level either. -/
theorem State.receiveFrame_idle {s : State} {rx : Reception} (h : s.link.state = .solo
    ∨ ((s.sc.part = .init ∨ s.link.slot ≠ none) ∧ ∀ bits, rx ≠ .levels bits)) : s.receiveFrame rx = s := by
  have hnot : ¬s.takesFrames = true := by
    rw [State.takesFrames, Bool.and_eq_true, Bool.and_eq_true, decide_eq_true_iff, decide_eq_true_iff, Option.isNone_iff_eq_none]
    rintro ⟨⟨hsolo, hinit⟩, hslot⟩
    rcases h with h | ⟨h | h, -⟩
    · exact hsolo h
    · exact hinit h
    · exact h hslot
  refine (if_neg hnot).trans ?_
  cases rx with
  | levels bits => exact if_pos (h.resolve_right fun ⟨_, hlevels⟩ => hlevels bits rfl)
  | short => rfl
  | framingError => rfl
  | complete f => rfl

/-- Settles O18, row by row. -/
theorem rowsWaitForTheirCondition : Obligations.RowsWaitForTheirCondition := by
  refine ⟨fun v s hrel => ⟨fun h => ?_, fun h => ?_, fun h => ?_, fun h => ?_, fun h => ?_, fun h => ?_, fun h => ?_, fun h => ?_⟩,
    fun s hrel => ⟨fun h => ?_, fun h => ?_, fun h => ?_, fun h => ?_, fun h => ?_, fun h => ?_, fun h => ?_⟩,
    fun p v s hrel => ⟨fun h => ?_, fun h => ?_⟩,
    fun o slot ho leadFirst s hrel => ⟨fun h => ?_, fun h => ?_, fun h => ?_, fun hopen hcount => ?_, fun h => ?_⟩,
    fun winner rx s hrel => ⟨fun h => ?_, fun h => ⟨?_, ?_, ?_⟩, fun x hx hle => ?_, fun h => ?_, fun h => ?_, fun h => ?_⟩⟩
  · rw [exec_epoch v hrel, Voice.epochDue_idle h, State.putVoice_self]
  · rw [exec_grainEnd v hrel, Voice.endGrains_idle h, State.setVoice_self]
  · rw [exec_attackComplete v hrel, Voice.attackComplete_idle h, State.setVoice_self]
  · rw [exec_fadeEnd v hrel, Voice.fadeEnd_idle h, State.setVoice_self]
  · rw [exec_holdLimit v hrel, Voice.holdLimitDue_idle h, State.putVoice_self]
  · rw [exec_returnToPrimary v hrel, if_neg (Voice.returnDue_idle h)]
  · rw [exec_firming v hrel, Voice.firmDue_idle v h, State.setVoice_self]
    rfl
  · rw [exec_claimRefresh v hrel, Voice.refreshDue_idle v h, State.setVoice_self]
    rfl
  · rw [exec_holdLength hrel, State.holdLengthEvent, State.holdLengthEnd_idle h, if_pos rfl]
  · rw [exec_decisionHop hrel, State.decisionEvent, State.decisionDue_idle h, if_pos rfl]
  · rw [exec_periodicLead hrel]
    refine congrArg _ (if_neg fun ⟨hcount, hvoiced⟩ => ?_)
    rcases h with h | h
    · omega
    · exact Bool.false_ne_true (h.symm.trans hvoiced)
  · rw [exec_periodicKey hrel]
    exact congrArg _ (if_neg h.not_ge)
  · rw [exec_quietHello hrel]
    exact congrArg _ (if_neg h.not_ge)
  · rw [exec_measurementCompletes hrel, State.measurementDue_idle h]
  · rw [exec, execInitCompletion, whenReleased_of_released _ _ hrel]
    exact congrArg _ (if_neg h)
  · rw [exec, execClaimAgeLimit, whenReleased_of_released _ _ hrel, State.claimAgeLimitDue_idle h]
  · rw [exec, execRecordLimit, whenReleased_of_released _ _ hrel, State.recordLimitDue_idle h]
  · rw [exec_syncedHop o hrel, State.syncedHopDue_idle h]
  · rw [exec_freeHop o hrel, State.freeHop_idle h]
  · rw [exec_sampleReceived slot ho hrel, State.sampleReceived_idle slot ho (.inr (.inl h)) (.inr h)]
  · rw [exec_sampleReceived slot ho hrel, State.sampleReceived_idle slot ho (.inl hcount) (.inl hopen)]
  · rw [exec_syncLossEvent leadFirst hrel]
    refine congrArg _ (if_neg fun ⟨hsync, htimer⟩ => ?_)
    rcases h with h | h
    · exact Bool.false_ne_true (h.symm.trans hsync)
    · exact Bool.false_ne_true (h.symm.trans htimer)
  · rw [exec, execStartFrame, whenReleased_of_released _ _ hrel]
    exact congrArg _ (if_neg (LinkController.mayStart_idle h))
  · rw [exec, execLostArbitration, whenReleased_of_released _ _ hrel, LinkController.loseArbitration, h]
  · rw [exec, execEchoMismatch, whenReleased_of_released _ _ hrel, LinkController.echoMismatch, h]
  · rw [exec, execFrameSent, whenReleased_of_released _ _ hrel, LinkController.frameSent, h]
  · have hkeeps : s.link.loseArbitration winner = s.link := by
      rw [LinkController.loseArbitration, hx]
      exact if_neg (by rw [losesArbitration_eq]; simpa using hle)
    rw [exec, execLostArbitration, whenReleased_of_released _ _ hrel, hkeeps]
  · rw [exec, execReceiveFrame, whenReleased_of_released _ _ hrel, State.receiveFrame_idle h]
  · rw [exec, execStuck, whenReleased_of_released _ _ hrel]
    exact congrArg _ (if_neg fun ⟨hstate, hslot⟩ => h.elim (· hstate) (· hslot))
  · rw [exec, execReturnToActive, whenReleased_of_released _ _ hrel]
    exact congrArg _ (if_neg h)

end Sys2Proof.Machine
end

section
/-! PROOFS. The Context Unit's work at a hop as one change of the state, and the order in which the Peer Table ages beside it (R35 to
R43, R50, R51, R89, R122). -/

namespace Sys2Proof.Machine

/-! ## The held note -/

theorem State.setHeld_eq (held : Option Nat) (count : Nat) (s : State) : s.setHeld held count = { s with
    cu := { s.cu with held := held, holdCount := count }
    voices := if held = s.cu.held then s.voices else s.clearFreeCounts.voices } := by
  rw [State.setHeld]
  by_cases h : held = s.cu.held
  · rw [if_pos h, if_pos h]
  · rw [if_neg h, if_neg h]
    rfl

/-- R36, R37: step 1 of the hop work. -/
theorem State.heldNoteWork_eq (s : State) : s.heldNoteWork = { s with
    cu := { s.cu with
      held := (s.cu.heldAfter s.cfg.snap s.pt.record).1, holdCount := (s.cu.heldAfter s.cfg.snap s.pt.record).2 }
    voices := if (s.cu.heldAfter s.cfg.snap s.pt.record).1 = s.cu.held then s.voices else s.clearFreeCounts.voices } := by
  rw [State.heldNoteWork]
  cases hvoiced : s.pt.record.voiced with
  | true =>
    have hafter : s.cu.heldAfter s.cfg.snap s.pt.record
        = (some (heldAfterVoiced s.cfg.snap s.cu.held s.pt.record.cents), 0) := by
      rw [ContextUnit.heldAfter, hvoiced]
      cases s.cu.held <;> rfl
    rw [if_pos rfl, State.setHeld_eq, hafter]
  | false =>
    rw [if_neg Bool.false_ne_true]
    cases hheld : s.cu.held with
    | none =>
      have hafter : s.cu.heldAfter s.cfg.snap s.pt.record = (s.cu.held, s.cu.holdCount) := by
        rw [ContextUnit.heldAfter, hvoiced, hheld]
      rw [hafter, if_pos hheld]
      rfl
    | some n =>
      rw [Option.isSome_some, if_pos rfl]
      by_cases hcount : s.cu.holdCount + 1 ≤ 8
      · have hafter : s.cu.heldAfter s.cfg.snap s.pt.record = (s.cu.held, s.cu.holdCount + 1) := by
          rw [ContextUnit.heldAfter, hvoiced, hheld]
          exact if_pos hcount
        rw [hafter, if_pos hheld]
        exact State.holdLengthEnd_idle (.inr hcount)
      · have hafter : s.cu.heldAfter s.cfg.snap s.pt.record = (none, 0) := by
          rw [ContextUnit.heldAfter, hvoiced, hheld]
          exact if_neg hcount
        rw [hafter, if_neg nofun]
        exact State.holdLengthEnd_of_past (n := n) hheld (Nat.lt_of_not_le hcount)

/-! ## The tally -/

theorem feed_get (tally : Vector Nat 12) (note confidence : Nat) (k : Fin 12) : (feed tally note confidence)[k]
    = if note % 12 = k.val then min 65535 (tally[k] + confidence) else tally[k] := by
  rw [feed]
  by_cases h : note % 12 = k.val
  · obtain rfl : pitchClass note = k := Fin.ext h
    rw [if_pos h]
    exact Vector.getElem_set_self (pitchClass note).isLt
  · rw [if_neg h]
    exact Vector.getElem_set_ne (pitchClass note).isLt k.isLt h

/-- R40: the leads given, each fed to its pitch class, one after another. -/
theorem foldl_feed_get (leads : List (Nat × Nat)) (tally : Vector Nat 12) (k : Fin 12) :
    (leads.foldl (fun t l => feed t l.1 l.2) tally)[k]
      = leads.foldl (fun x l => if l.1 % 12 = k.val then min 65535 (x + l.2) else x) tally[k] := by
  induction leads generalizing tally with
  | nil => rfl
  | cons l leads ih => rw [List.foldl_cons, List.foldl_cons, ih, feed_get]

theorem State.feedOwn_eq (s : State) (tally : Vector Nat 12) : s.feedOwn tally
    = (if s.pt.record.voiced then (s.cu.held.map fun n => (n, s.pt.record.confidence)).toList else []).foldl
        (fun t l => feed t l.1 l.2) tally := by
  rw [State.feedOwn]
  cases s.cu.held <;> cases s.pt.record.voiced <;> rfl

theorem State.feedPeers_eq (s : State) (tally : Vector Nat 12) : s.feedPeers tally
    = ((List.finRange 8).filterMap s.soundingLead).foldl (fun t l => feed t l.1 l.2) tally := by
  rw [State.feedPeers, List.foldl_filterMap]
  refine List.foldl_ext _ _ _ fun t p _ => ?_
  cases s.soundingLead p <;> rfl

/-- R39, R40: the tally that step 2 of the hop work leaves. -/
def State.tallyAfter (s : State) : Vector Nat 12 := s.feedPeers (s.feedOwn (Vector.ofFn fun k => decayed s.cu.tally[k]))

theorem State.tallyAfter_get (s : State) (k : Fin 12) : s.tallyAfter[k] = weightAfter s.cu.tally[k] k
    ((if s.pt.record.voiced then (s.cu.held.map fun n => (n, s.pt.record.confidence)).toList else [])
      ++ (List.finRange 8).filterMap s.soundingLead) := by
  rw [State.tallyAfter, State.feedPeers_eq, State.feedOwn_eq, ← List.foldl_append, foldl_feed_get, weightAfter,
    Fin.getElem_fin (Vector.ofFn _), Vector.getElem_ofFn]
  rfl

/-! ## The whole work -/

/-- R36 to R40: the Context Unit once its held note and its tally are those of the hop, the decision count one up. -/
def State.contextBefore (s : State) : ContextUnit :=
  { s.cu with
    held := (s.cu.heldAfter s.cfg.snap s.pt.record).1
    holdCount := (s.cu.heldAfter s.cfg.snap s.pt.record).2
    tally := s.heldNoteWork.tallyAfter
    decisionCount := s.cu.decisionCount + 1 }

/-- R41 to R43: the Context Unit after the hop's decision. -/
def State.contextDecided (s : State) : ContextUnit :=
  if 16 ≤ s.cu.decisionCount + 1 then s.contextBefore.atDecision else s.contextBefore

/-- R35 to R43, R51: the Context Unit a hop leaves, the ageing apart. -/
def State.contextAfter (s : State) : ContextUnit :=
  { s.contextDecided with changed := s.cu.changed || decide (s.contextDecided.key ≠ s.cu.key) }

theorem ContextUnit.atDecision_frame (c : ContextUnit) : c.atDecision.held = c.held ∧ c.atDecision.holdCount = c.holdCount
    ∧ c.atDecision.tally = c.tally ∧ c.atDecision.decisionCount = 0 ∧ c.atDecision.mode = c.mode := by
  by_cases hmode : c.mode = .auto
  · rw [ContextUnit.atDecision_auto hmode]
    exact ⟨rfl, rfl, rfl, rfl, rfl⟩
  · rw [ContextUnit.atDecision_pinned hmode]
    exact ⟨rfl, rfl, rfl, rfl, rfl⟩

/-- R35 to R43: what a hop leaves of the Context Unit but for its key. -/
theorem State.contextAfter_frame (s : State) :
    s.contextAfter.held = (s.cu.heldAfter s.cfg.snap s.pt.record).1
    ∧ s.contextAfter.holdCount = (s.cu.heldAfter s.cfg.snap s.pt.record).2
    ∧ s.contextAfter.tally = s.heldNoteWork.tallyAfter
    ∧ s.contextAfter.decisionCount = (if s.cu.decisionCount + 1 < 16 then s.cu.decisionCount + 1 else 0)
    ∧ s.contextAfter.mode = s.cu.mode
    ∧ s.contextAfter.changed = (s.cu.changed || decide (s.contextAfter.key ≠ s.cu.key)) := by
  obtain ⟨hheld, hcount, htally, hzero, hmode⟩ := s.contextBefore.atDecision_frame
  rw [State.contextAfter, State.contextDecided]
  by_cases hdue : 16 ≤ s.cu.decisionCount + 1
  · rw [if_pos hdue, if_neg hdue.not_gt]
    exact ⟨hheld, hcount, htally, hzero, hmode, rfl⟩
  · rw [if_neg hdue, if_pos (Nat.lt_of_not_le hdue)]
    exact ⟨rfl, rfl, rfl, rfl, rfl, rfl⟩

/-- R41 to R43: the key a hop leaves, and the flag of the open decision. -/
theorem State.contextAfter_key (s : State) :
    s.contextAfter.key = (if decide (16 ≤ s.cu.decisionCount + 1) && decide (s.cu.mode = .auto) then
        ContextUnit.decide { s.cu with tally := s.contextAfter.tally } else s.cu.key)
    ∧ s.contextAfter.openDecision
      = (!(decide (16 ≤ s.cu.decisionCount + 1) && decide (s.cu.mode = .auto)) && s.cu.openDecision) := by
  obtain ⟨-, -, htally, -⟩ := s.contextAfter_frame
  rw [htally]
  have hdecided : s.contextAfter.key = s.contextDecided.key ∧ s.contextAfter.openDecision = s.contextDecided.openDecision :=
    ⟨rfl, rfl⟩
  rw [hdecided.1, hdecided.2, State.contextDecided]
  by_cases hdue : 16 ≤ s.cu.decisionCount + 1
  · rw [if_pos hdue, decide_eq_true hdue, Bool.true_and]
    by_cases hmode : s.cu.mode = .auto
    · rw [ContextUnit.atDecision_auto (c := s.contextBefore) hmode, decide_eq_true hmode]
      exact ⟨rfl, rfl⟩
    · rw [ContextUnit.atDecision_pinned (c := s.contextBefore) hmode, decide_eq_false hmode]
      exact ⟨rfl, rfl⟩
  · rw [if_neg hdue, decide_eq_false hdue]
    exact ⟨rfl, rfl⟩

theorem State.clearFreeCounts_twice (s : State) : s.clearFreeCounts.clearFreeCounts = s.clearFreeCounts := by
  refine congrArg (fun vs => { s with voices := vs }) (Vector.ext fun i hi => ?_)
  exact ((State.clearFreeCounts_get s.clearFreeCounts ⟨i, hi⟩).trans
    (congrArg (fun vo : Voice => { vo with plan := { vo.plan with freeCount := 0 } }) (s.clearFreeCounts_get ⟨i, hi⟩))).trans
    (s.clearFreeCounts_get ⟨i, hi⟩).symm

/-- R36 to R40: the work of a hop up to the decision. -/
theorem State.beforeDecision_eq (s : State) : s.heldNoteWork.tallyWork.decisionWork = State.decisionDue { s with
    cu := s.contextBefore
    voices := if s.contextBefore.held = s.cu.held then s.voices else s.clearFreeCounts.voices } := by
  rw [State.decisionWork, State.tallyWork, ← State.tallyAfter]
  refine congrArg State.decisionDue ?_
  rw [State.contextBefore, State.heldNoteWork_eq]

/-- R35: the state the Context Unit's work at a hop leaves. -/
theorem State.contextState_eq (s : State) : s.heldNoteWork.tallyWork.decisionWork = { s with
    cu := s.contextAfter
    sc := if s.contextAfter.key = s.cu.key then s.sc else s.sc.raising 0x10
    voices := if s.contextAfter.held = s.cu.held ∧ s.contextAfter.key = s.cu.key then s.voices
      else s.clearFreeCounts.voices } := by
  have hheld : s.contextAfter.held = s.contextBefore.held := s.contextAfter_frame.1
  rw [State.beforeDecision_eq]
  by_cases hdue : 16 ≤ s.cu.decisionCount + 1
  · have hkey : s.contextAfter.key = s.contextBefore.atDecision.key := by
      rw [State.contextAfter, State.contextDecided, if_pos hdue]
    rw [State.decisionDue_of_due (s := { s with
      cu := s.contextBefore
      voices := if s.contextBefore.held = s.cu.held then s.voices else s.clearFreeCounts.voices }) hdue, hheld, hkey]
    congr 1
    · rw [State.contextAfter, State.contextDecided, if_pos hdue]
      rfl
    · by_cases hk : s.contextBefore.atDecision.key = s.cu.key
      · refine (if_pos hk).trans ?_
        exact if_congr (and_iff_left hk).symm rfl rfl
      · refine (if_neg hk).trans (Eq.trans ?_ (if_neg fun h => hk h.2).symm)
        by_cases hh : s.contextBefore.held = s.cu.held
        · rw [if_pos hh]
          rfl
        · rw [if_neg hh]
          have htwice := congrArg State.voices s.clearFreeCounts_twice
          exact htwice
  · have hafter : s.contextAfter = s.contextBefore := by
      rw [State.contextAfter, State.contextDecided, if_neg hdue]
      have hchanged : (s.cu.changed || decide (s.contextBefore.key ≠ s.cu.key)) = s.contextBefore.changed :=
        (congrArg (s.cu.changed || ·) (decide_eq_false (not_not_intro rfl))).trans (Bool.or_false _)
      rw [hchanged]
    have hkey : s.contextBefore.key = s.cu.key := rfl
    rw [State.decisionDue_idle (s := { s with
      cu := s.contextBefore
      voices := if s.contextBefore.held = s.cu.held then s.voices else s.clearFreeCounts.voices }) (Nat.lt_of_not_le hdue),
      hafter, if_pos hkey]
    congr 1
    exact if_congr (and_iff_left hkey).symm rfl rfl

/-- R35: the Context Unit's work at a hop, with what it signals. -/
theorem State.contextWork_eq (s : State) : s.contextWork = ({ s with
      cu := s.contextAfter
      sc := if s.contextAfter.key = s.cu.key then s.sc else s.sc.raising 0x10
      voices := if s.contextAfter.held = s.cu.held ∧ s.contextAfter.key = s.cu.key then s.voices
        else s.clearFreeCounts.voices },
    { heldChanged := decide (s.contextAfter.held ≠ s.cu.held), keyChanged := decide (s.contextAfter.key ≠ s.cu.key) }) :=
  congrArg (fun t : State => (t, ({ heldChanged := decide (t.cu.held ≠ s.cu.held)
                                    keyChanged := decide (t.cu.key ≠ s.cu.key) } : HopSignals))) s.contextState_eq

/-- R39, R40: the tally a hop leaves. -/
theorem State.contextAfter_tally (s : State) (k : Fin 12) : s.contextAfter.tally[k] = weightAfter s.cu.tally[k] k
    ((if s.pt.record.voiced then (s.contextAfter.held.map fun n => (n, s.pt.record.confidence)).toList else [])
      ++ (List.finRange 8).filterMap s.soundingLead) := by
  obtain ⟨hheld, -, htally, -⟩ := s.contextAfter_frame
  have hleads : s.heldNoteWork.soundingLead = s.soundingLead := by
    funext p
    rw [State.soundingLead, State.soundingLead, State.heldNoteWork_eq]
  rw [htally, State.tallyAfter_get, hleads, hheld, State.heldNoteWork_eq]

/-! ## Beside the ageing -/

/-- R50: the Context Unit once the pin of a removed station is given up. -/
def ContextUnit.released (released : Bool) (c : ContextUnit) : ContextUnit :=
  if released then { c with mode := .auto, openDecision := true, changed := true } else c

/-- R35 to R43, R50: the Context Unit a hop leaves, the Peer Table aged at place `age`. -/
def State.contextAtHop (s : State) (age : Place) : ContextUnit :=
  if age = .beforeContext then s.ageing.contextAfter else s.contextAfter.released s.pinExpires

theorem State.ageing_frame (s : State) : s.ageing.cu = s.cu.released s.pinExpires ∧ s.ageing.pt = s.pt
    ∧ s.ageing.cfg = s.cfg := by
  rw [State.ageing_eq]
  exact ⟨rfl, rfl, rfl⟩

theorem ContextUnit.released_heldAfter (b : Bool) (c : ContextUnit) (snap : Nat) (r : PitchRecord) :
    (c.released b).heldAfter snap r = c.heldAfter snap r := by cases b <;> rfl

/-- The Context Unit after a hop that ages the Peer Table first. -/
theorem State.ageing_contextAfter (s : State) :
    s.ageing.contextAfter.held = (s.cu.heldAfter s.cfg.snap s.pt.record).1
    ∧ s.ageing.contextAfter.holdCount = (s.cu.heldAfter s.cfg.snap s.pt.record).2
    ∧ s.ageing.contextAfter.decisionCount = (if s.cu.decisionCount + 1 < 16 then s.cu.decisionCount + 1 else 0)
    ∧ s.ageing.contextAfter.mode = (if s.pinExpires then .auto else s.cu.mode)
    ∧ s.ageing.contextAfter.changed = (s.cu.changed || s.pinExpires || decide (s.ageing.contextAfter.key ≠ s.cu.key)) := by
  obtain ⟨hheld, hcount, -, hdecision, hmode, hchanged⟩ := s.ageing.contextAfter_frame
  obtain ⟨hcu, hpt, hcfg⟩ := s.ageing_frame
  rw [hcu, hpt, hcfg, ContextUnit.released_heldAfter] at hheld hcount
  rw [hcu] at hdecision hmode hchanged
  rw [hheld, hcount, hdecision, hmode, hchanged]
  cases s.pinExpires with
  | true =>
    refine ⟨rfl, rfl, rfl, rfl, ?_⟩
    rw [Bool.or_true]
    rfl
  | false =>
    refine ⟨rfl, rfl, rfl, rfl, ?_⟩
    rw [Bool.or_false]
    rfl

/-- R35 to R43, R50, R89, R122: a hop leaves of the Context Unit and the Peer Table what `State.contextHop` says. -/
theorem State.contextHop_of {s t : State} {age : Place} (hcu : t.cu = s.contextAtHop age)
    (hpeers : t.peers = s.ageing.peers) : s.contextHop t s.pt.record age := by
  rw [State.contextHop, hcu, State.contextAtHop]
  by_cases hage : age = .beforeContext
  · obtain ⟨hheld, hcount, hdecision, hmode, hchanged⟩ := s.ageing_contextAfter
    obtain ⟨hkey, hopen⟩ := s.ageing.contextAfter_key
    obtain ⟨hcu', hpt, hcfg⟩ := s.ageing_frame
    rw [if_pos hage, if_pos hage, decide_eq_true hage, Bool.and_true]
    have hpair : (s.ageing.contextAfter.held, s.ageing.contextAfter.holdCount)
        = s.cu.heldAfter s.cfg.snap s.pt.record := by rw [hheld, hcount]
    refine ⟨hpair, fun k => ?_, hdecision, ⟨?_, ?_⟩, hmode, hchanged, hpeers⟩
    · have htally := s.ageing.contextAfter_tally k
      rw [hpt, hcu'] at htally
      rw [htally]
      cases s.pinExpires <;> rfl
    · rw [hkey, hcu']
      cases s.pinExpires with
      | true =>
        rw [Bool.or_true, Bool.or_true]
        rfl
      | false =>
        rw [Bool.or_false, Bool.or_false]
        rfl
    · rw [hopen, hcu']
      cases s.pinExpires with
      | true =>
        rw [Bool.or_true, Bool.or_true]
        rfl
      | false =>
        rw [Bool.or_false, Bool.or_false]
        rfl
  · obtain ⟨hheld, hcount, -, hdecision, hmode, hchanged⟩ := s.contextAfter_frame
    obtain ⟨hkey, hopen⟩ := s.contextAfter_key
    have htally := s.contextAfter_tally
    rw [if_neg hage, if_neg hage, decide_eq_false hage, Bool.and_false]
    dsimp only
    rw [Bool.or_false, Bool.or_false, Bool.not_false, Bool.and_true]
    have hpair : (s.contextAfter.held, s.contextAfter.holdCount) = s.cu.heldAfter s.cfg.snap s.pt.record := by
      rw [hheld, hcount]
    cases s.pinExpires with
    | true =>
      refine ⟨hpair, htally, hdecision, ⟨hkey, rfl⟩, rfl, ?_, hpeers⟩
      rw [Bool.or_true]
      rfl
    | false =>
      refine ⟨hpair, htally, hdecision, ⟨hkey, hopen⟩, hmode, ?_, hpeers⟩
      rw [Bool.or_false]
      exact hchanged

end Sys2Proof.Machine
end

section
/-! PROOFS. A hop's changes gathered: the Context Unit, the Peer Table, the causes, the free counts and the link, block by block in
whichever order; and the free hop (R7, R35, R50, R51, R89, R108 to R112, R122, R165). -/

namespace Sys2Proof.Machine

/-! ## The gathered change of a hop -/

/-- R165, R169: what a hop leaves of the State Controller: the causes `raised` pending, and the part back in LIVE if it `wakes`. -/
def StateController.hopped (raised : BitVec 7) (wakes : Bool) (c : StateController) : StateController :=
  { c.raising raised with part := if wakes then .live else c.part, liveEntry := c.liveEntry || wakes }

/-- The causes a hop raises: PEER when a record is `gone`, CONTEXT when the context is `changed` (R51, R123). -/
def hopCauses (gone changed : Bool) : BitVec 7 := (if gone then 0x08 else 0) ||| (if changed then 0x10 else 0)

/-- What a hop changes of a state but for its voices' planning and engines. -/
structure HopChange where
  cu : ContextUnit
  peers : Vector (Option PeerRecord) 8
  gone : Bool
  changed : Bool
  cleared : Bool
  wakes : Bool
  link : LinkController

/-- The state with a hop's change made. -/
def State.hopped (s : State) (h : HopChange) : State :=
  { s with
    cu := h.cu
    peers := h.peers
    sc := s.sc.hopped (hopCauses h.gone h.changed) h.wakes
    voices := if h.cleared then s.clearFreeCounts.voices else s.voices
    link := h.link }

/-- The change that leaves a state as it is. -/
def State.noChange (s : State) : HopChange :=
  { cu := s.cu, peers := s.peers, gone := false, changed := false, cleared := false, wakes := false, link := s.link }

theorem StateController.hopped_false (c : StateController) : c.hopped (hopCauses false false) false = c := by
  rw [StateController.hopped, show hopCauses false false = 0 from rfl, StateController.raising_zero, Bool.or_false]
  rfl

theorem StateController.hopped_hopped (a b : BitVec 7) (w w' : Bool) (c : StateController) :
    (c.hopped a w).hopped b w' = c.hopped (a ||| b) (w || w') := by
  rw [StateController.hopped, StateController.hopped, StateController.hopped, ← StateController.raising_raising,
    ← Bool.or_assoc]
  cases w <;> cases w' <;> rfl

theorem hopCauses_or (g g' c c' : Bool) : hopCauses g c ||| hopCauses g' c' = hopCauses (g || g') (c || c') := raised_or ..

theorem State.hopped_noChange (s : State) : s.hopped s.noChange = s := by
  rw [State.hopped, State.noChange, StateController.hopped_false]
  rfl

/-- One change after another is one change. -/
theorem State.hopped_hopped (s : State) (h k : HopChange) : (s.hopped h).hopped k = s.hopped { k with
    gone := h.gone || k.gone, changed := h.changed || k.changed, cleared := h.cleared || k.cleared
    wakes := h.wakes || k.wakes } := by
  have hsc : (s.sc.hopped (hopCauses h.gone h.changed) h.wakes).hopped (hopCauses k.gone k.changed) k.wakes
      = s.sc.hopped (hopCauses (h.gone || k.gone) (h.changed || k.changed)) (h.wakes || k.wakes) := by
    rw [StateController.hopped_hopped, hopCauses_or]
  have hvoices : (if k.cleared then (s.hopped h).clearFreeCounts.voices else (s.hopped h).voices)
      = if h.cleared || k.cleared then s.clearFreeCounts.voices else s.voices := by
    cases hh : h.cleared with
    | false =>
      have hstay : (s.hopped h).voices = s.voices := if_neg (by rw [hh]; exact Bool.false_ne_true)
      have hclear : (s.hopped h).clearFreeCounts.voices = s.clearFreeCounts.voices :=
        congrArg (fun vs => State.voices (State.clearFreeCounts { s with voices := vs })) hstay
      rw [hstay, hclear, Bool.false_or]
    | true =>
      have hcleared : (s.hopped h).voices = s.clearFreeCounts.voices := if_pos hh
      have htwice : (s.hopped h).clearFreeCounts.voices = s.clearFreeCounts.voices :=
        (congrArg (fun vs => State.voices (State.clearFreeCounts { s with voices := vs })) hcleared).trans
          (congrArg State.voices s.clearFreeCounts_twice)
      rw [hcleared, htwice, Bool.true_or, ite_self]
      rfl
  exact congrArg₂ (fun sc vs => { s with cu := k.cu, peers := k.peers, sc := sc, voices := vs, link := k.link }) hsc hvoices

/-! ## The blocks of a hop -/

/-- R110: a KEY is offered, which sets the KEY count to 0. -/
def LinkController.offerKey (l : LinkController) : LinkController := { l.offer .key with keyCount := 0 }

/-- R35: the change the Context Unit makes at a hop. -/
theorem State.contextWork_hopped (s : State) : s.contextWork = (s.hopped { s.noChange with
      cu := s.contextAfter
      changed := decide (s.contextAfter.key ≠ s.cu.key)
      cleared := decide (s.contextAfter.held ≠ s.cu.held) || decide (s.contextAfter.key ≠ s.cu.key) },
    { heldChanged := decide (s.contextAfter.held ≠ s.cu.held), keyChanged := decide (s.contextAfter.key ≠ s.cu.key) }) := by
  have hsc : (if s.contextAfter.key = s.cu.key then s.sc else s.sc.raising 0x10)
      = s.sc.hopped (hopCauses false (decide (s.contextAfter.key ≠ s.cu.key))) false := by
    by_cases hkey : s.contextAfter.key = s.cu.key
    · rw [if_pos hkey, decide_eq_false (not_not_intro hkey), StateController.hopped_false]
    · rw [if_neg hkey, decide_eq_true hkey, StateController.hopped, Bool.or_false]
      rfl
  have hvoices : (if s.contextAfter.held = s.cu.held ∧ s.contextAfter.key = s.cu.key then s.voices
        else s.clearFreeCounts.voices)
      = if decide (s.contextAfter.held ≠ s.cu.held) || decide (s.contextAfter.key ≠ s.cu.key) then s.clearFreeCounts.voices
        else s.voices := by
    by_cases hboth : s.contextAfter.held = s.cu.held ∧ s.contextAfter.key = s.cu.key
    · rw [if_pos hboth, decide_eq_false (not_not_intro hboth.1), decide_eq_false (not_not_intro hboth.2)]
      rfl
    · rw [if_neg hboth, if_pos]
      rw [Bool.or_eq_true, decide_eq_true_iff, decide_eq_true_iff]
      exact not_and_or.1 hboth
  rw [State.contextWork_eq]
  exact congrArg₂ (fun sc vs => (({ s with cu := s.contextAfter, sc := sc, voices := vs } : State),
    ({ heldChanged := decide (s.contextAfter.held ≠ s.cu.held)
       keyChanged := decide (s.contextAfter.key ≠ s.cu.key) } : HopSignals))) hsc hvoices

/-- The ageing of a state whose Peer Table and mode are still those of the hop's start. -/
theorem State.ageing_hopped (s : State) {h : HopChange} (hpeers : h.peers = s.peers) (hmode : h.cu.mode = s.cu.mode) :
    (s.hopped h).ageing = s.hopped { h with
      cu := h.cu.released s.pinExpires
      peers := s.ageing.peers
      gone := h.gone || (List.finRange 8).any s.peerExpires
      changed := h.changed || s.pinExpires
      cleared := h.cleared || s.pinExpires
      link := if s.pinExpires then h.link.offerKey else h.link } := by
  have hexpires : (s.hopped h).peerExpires = s.peerExpires :=
    funext fun p => State.peerExpires_congr rfl (congrArg (fun ps : Vector (Option PeerRecord) 8 => ps[p]) hpeers)
  have haged : (s.hopped h).agedPeer = s.agedPeer :=
    funext fun p => State.agedPeer_congr rfl (congrArg (fun ps : Vector (Option PeerRecord) 8 => ps[p]) hpeers)
  have hpin : (s.hopped h).pinExpires = s.pinExpires := by
    rw [State.pinExpires, State.pinExpires, hexpires]
    exact congrArg (fun mode : KeyMode => match mode with
      | .pinnedPeer p => s.peerExpires p
      | _ => false) hmode
  have htable : s.ageing.peers = Vector.ofFn s.agedPeer := by rw [State.ageing_eq]; rfl
  have hone : (s.hopped h).ageing = (s.hopped h).hopped { h with
      cu := h.cu.released s.pinExpires
      peers := s.ageing.peers
      gone := (List.finRange 8).any s.peerExpires
      changed := s.pinExpires
      cleared := s.pinExpires
      wakes := false
      link := if s.pinExpires then h.link.offerKey else h.link } := by
    have hsc : (s.hopped h).sc.raising ((if (List.finRange 8).any s.peerExpires then 0x08 else 0)
          ||| (if s.pinExpires then 0x10 else 0))
        = (s.hopped h).sc.hopped (hopCauses ((List.finRange 8).any s.peerExpires) s.pinExpires) false := by
      rw [StateController.hopped, Bool.or_false]
      rfl
    rw [State.ageing_eq, hexpires, haged, hpin, htable, State.agedAs, hsc]
    rfl
  rw [hone, State.hopped_hopped, Bool.or_false]

/-! ## The link controller at a hop -/

/-- R109: the LEAD count and the LEAD of a synced hop, the last voiced flag following the record. -/
def LinkController.leadSynced (heldChanged voiced : Bool) (l : LinkController) : LinkController :=
  { (if heldChanged || voiced != l.lastVoiced || (voiced && decide (4 ≤ l.leadCount + 1)) then l.offer .lead else l) with
    lastVoiced := voiced
    leadCount := if !heldChanged && voiced && l.lastVoiced && decide (l.leadCount + 1 < 4) then l.leadCount + 1 else 0 }

/-- R110: the KEY count counts the hop, and a context change or the count's limit offers a KEY. -/
def LinkController.keyAtHop (keyChanged : Bool) (l : LinkController) : LinkController :=
  if keyChanged || decide (128 ≤ l.keyCount + 1) then LinkController.offerKey { l with keyCount := l.keyCount + 1 }
  else { l with keyCount := l.keyCount + 1 }

/-- R111: the quiet count counts the hop, and at REFRESH offers a HELLO. -/
def LinkController.quietAtHop (refresh : Nat) (l : LinkController) : LinkController :=
  if refresh ≤ l.quietCount + 1 then
    { LinkController.offer { l with quietCount := l.quietCount + 1 } (.hello false) with quietCount := 0 }
  else { l with quietCount := l.quietCount + 1 }

/-- R109 to R111: the link controller's work at a free hop. -/
def LinkController.freeHop (heldChanged keyChanged : Bool) (refresh : Nat) (l : LinkController) : LinkController :=
  ((if heldChanged then { l.offer .lead with leadCount := 0 } else l).keyAtHop keyChanged).quietAtHop refresh

/-- R109 to R111: the link controller's work at a synced hop. -/
def LinkController.syncedHop (heldChanged keyChanged voiced : Bool) (refresh : Nat) (l : LinkController) : LinkController :=
  ((l.leadSynced heldChanged voiced).keyAtHop keyChanged).quietAtHop refresh

theorem State.keyTrigger_eq (keyChanged : Bool) (s : State) :
    s.keyTrigger keyChanged = { s with link := s.link.keyAtHop keyChanged } := by
  rw [State.keyTrigger, LinkController.keyAtHop]
  cases keyChanged with
  | true => rfl
  | false =>
    rw [if_neg Bool.false_ne_true, Bool.false_or, if_congr decide_eq_true_iff rfl rfl]
    exact (apply_ite (fun l => { s with link := l }) (128 ≤ s.link.keyCount + 1) _ _).symm

theorem State.quietTrigger_eq (s : State) : s.quietTrigger = { s with link := s.link.quietAtHop s.cfg.refresh } := by
  rw [State.quietTrigger, LinkController.quietAtHop]
  exact (apply_ite (fun l => { s with link := l }) (s.cfg.refresh ≤ s.link.quietCount + 1) _ _).symm

theorem State.leadTriggerFree_eq (heldChanged : Bool) (s : State) : s.leadTriggerFree heldChanged
    = { s with link := if heldChanged then { s.link.offer .lead with leadCount := 0 } else s.link } := by
  cases heldChanged <;> rfl

/-- R109: at a synced hop a LEAD by the held note, the flags and the count. -/
theorem State.leadTriggerSynced_eq (heldChanged : Bool) (s : State) : s.leadTriggerSynced heldChanged
    = { s with link := s.link.leadSynced heldChanged s.pt.record.voiced } := by
  rw [State.leadTriggerSynced, LinkController.leadSynced]
  by_cases hchange : (heldChanged || s.pt.record.voiced != s.link.lastVoiced) = true
  · have hcount : (!heldChanged && s.pt.record.voiced && s.link.lastVoiced) = false := by
      revert hchange
      cases heldChanged <;> cases s.pt.record.voiced <;> cases s.link.lastVoiced <;> decide
    dsimp only
    rw [if_pos hchange, hchange, hcount, Bool.true_or, Bool.false_and, if_pos rfl, if_neg Bool.false_ne_true]
    refine congrArg (fun n => { s with link := { s.link.offer .lead with lastVoiced := s.pt.record.voiced, leadCount := n } }) ?_
    exact ite_self _
  · dsimp only
    rw [if_neg hchange, Bool.eq_false_iff.2 hchange, Bool.false_or]
    have hcount : (!heldChanged && s.pt.record.voiced && s.link.lastVoiced) = s.pt.record.voiced := by
      revert hchange
      cases heldChanged <;> cases s.pt.record.voiced <;> cases s.link.lastVoiced <;> decide
    rw [hcount]
    cases hvoiced : s.pt.record.voiced with
    | false => rfl
    | true =>
      by_cases hdue : 4 ≤ s.link.leadCount + 1
      · have hnot : ¬s.link.leadCount + 1 < 4 := hdue.not_gt
        rw [State.periodicLeadDue, if_pos rfl, decide_eq_true hdue, decide_eq_false hnot, if_pos ⟨hdue, hvoiced⟩]
        exact congrArg (fun l : LinkController => { s with link := { l with lastVoiced := true, leadCount := 0 } })
          (LinkController.offer_withLeadCount s.link .lead (s.link.leadCount + 1))
      · have hlt : s.link.leadCount + 1 < 4 := Nat.lt_of_not_le hdue
        rw [State.periodicLeadDue, if_pos rfl, decide_eq_false hdue, decide_eq_true hlt, if_neg fun h => hdue h.1]
        rfl

/-- R108: at a free hop. -/
theorem State.linkHopWork_free (sig : HopSignals) (s : State) : s.linkHopWork false sig
    = { s with link := s.link.freeHop sig.heldChanged sig.keyChanged s.cfg.refresh } := by
  rw [State.linkHopWork, if_neg Bool.false_ne_true, State.leadTriggerFree_eq, State.keyTrigger_eq, State.quietTrigger_eq]
  rfl

/-- R108: at a synced hop. -/
theorem State.linkHopWork_synced (sig : HopSignals) (s : State) : s.linkHopWork true sig
    = { s with link := s.link.syncedHop sig.heldChanged sig.keyChanged s.pt.record.voiced s.cfg.refresh } := by
  rw [State.linkHopWork, if_pos rfl, State.leadTriggerSynced_eq, State.keyTrigger_eq, State.quietTrigger_eq]
  rfl

end Sys2Proof.Machine
end

section
/-! PROOFS. The places of a hop at which the Peer Table ages and a voiced onset wakes the part, as changes gathered one after another
(R35, R40, R81, R108, R122, R165). -/

namespace Sys2Proof.Machine

/-! ## The Context Unit reads the words, the record and the peers -/

theorem State.tallyAfter_congr {s t : State} (hcu : t.cu = s.cu) (hpt : t.pt = s.pt) (hpeers : t.peers = s.peers) :
    t.tallyAfter = s.tallyAfter := by
  have hleads : t.soundingLead = s.soundingLead := by
    funext p
    rw [State.soundingLead, State.soundingLead, hpeers]
  rw [State.tallyAfter, State.tallyAfter, State.feedPeers_eq, State.feedPeers_eq, hleads, State.feedOwn_eq, State.feedOwn_eq,
    hcu, hpt]

theorem State.contextAfter_congr {s t : State} (hcu : t.cu = s.cu) (hpt : t.pt = s.pt) (hcfg : t.cfg = s.cfg)
    (hpeers : t.peers = s.peers) : t.contextAfter = s.contextAfter := by
  have htally : t.heldNoteWork.tallyAfter = s.heldNoteWork.tallyAfter := by
    refine State.tallyAfter_congr ?_ ?_ ?_
    · rw [State.heldNoteWork_eq, State.heldNoteWork_eq, hcu, hcfg, hpt]
    · rw [State.heldNoteWork_eq, State.heldNoteWork_eq, hpt]
    · rw [State.heldNoteWork_eq, State.heldNoteWork_eq, hpeers]
  have hbefore : t.contextBefore = s.contextBefore := by
    rw [State.contextBefore, State.contextBefore, htally, hcu, hcfg, hpt]
  rw [State.contextAfter, State.contextAfter, State.contextDecided, State.contextDecided, hbefore, hcu]

namespace HopChange

/-- R122: the change with the Peer Table aged. -/
def aged (s : State) (h : HopChange) : HopChange :=
  { h with
    cu := h.cu.released s.pinExpires
    peers := s.ageing.peers
    gone := h.gone || (List.finRange 8).any s.peerExpires
    changed := h.changed || s.pinExpires
    cleared := h.cleared || s.pinExpires
    link := if s.pinExpires then h.link.offerKey else h.link }

end HopChange

/-- R165: the part wakes at a synced hop with a voiced onset. -/
def State.wakesUp (s : State) : Bool :=
  decide (s.sc.part = .standby) && s.pt.record.voiced && !s.pt.prevVoiced && s.sc.wakeOnVoice

/-- R102, R110, R112, R165: the link controller at a wake, which is the first entry to LIVE when `first`. -/
def LinkController.woken (first : Bool) (l : LinkController) : LinkController :=
  LinkController.offer
    (if first = true ∧ l.state = .listen then
      ({ l with state := .active, stuckMonitor := .dominant }.offer (.hello true)).offerKey
    else l) (.hello false)

theorem State.returnToLive_eq (s : State) : s.returnToLive = { s with
    sc := { s.sc with part := .live, liveEntry := true }, link := s.link.woken (!s.sc.liveEntry) } := by
  rw [State.returnToLive, State.enterLive, LinkController.woken]
  cases s.sc.liveEntry with
  | true => rfl
  | false =>
    rw [if_neg Bool.false_ne_true, State.linkFirstLive]
    cases hstate : s.link.state
    case listen => rfl
    all_goals rfl

namespace HopChange

/-- R165: the change with the part woken. -/
def woke (s : State) (h : HopChange) : HopChange :=
  if s.wakesUp then { h with wakes := true, link := h.link.woken (!s.sc.liveEntry) } else h

/-- The change with the blocks that the order takes at a place. -/
def ageAt (s : State) (o : HopOrder) (p : Place) (h : HopChange) : HopChange := if o.ageing = p then h.aged s else h

/-- The change with the ageing and then the onset that the order takes at a place. -/
def visit (s : State) (o : HopOrder) (p : Place) (h : HopChange) : HopChange :=
  if o.onset = p then (h.ageAt s o p).woke s else h.ageAt s o p

/-- The change with the Context Unit's work done: `c` is what it leaves, from `s` before the hop. -/
def context (s : State) (c : ContextUnit) (h : HopChange) : HopChange :=
  { h with
    cu := c
    changed := h.changed || decide (c.key ≠ s.cu.key)
    cleared := h.cleared || (decide (c.held ≠ s.cu.held) || decide (c.key ≠ s.cu.key)) }

end HopChange

theorem State.ageAtPlace_hopped (s : State) (o : HopOrder) (p : Place) {h : HopChange}
    (hages : o.ageing = p → h.peers = s.peers ∧ h.cu.mode = s.cu.mode) :
    (s.hopped h).ageAtPlace o p = s.hopped (h.ageAt s o p) := by
  rw [State.ageAtPlace, HopChange.ageAt]
  by_cases hp : o.ageing = p
  · obtain ⟨hpeers, hmode⟩ := hages hp
    rw [if_pos hp, if_pos hp, State.ageing_hopped s hpeers hmode]
    rfl
  · rw [if_neg hp, if_neg hp]

theorem State.onsetWork_hopped (s : State) {h : HopChange} (hwakes : h.wakes = false) :
    (s.hopped h).onsetWork = s.hopped (h.woke s) := by
  have hpart : (s.hopped h).sc.part = s.sc.part := if_neg (by rw [hwakes]; exact Bool.false_ne_true)
  have hlive : (s.hopped h).sc.liveEntry = s.sc.liveEntry := by
    show (s.sc.liveEntry || h.wakes) = _
    rw [hwakes, Bool.or_false]
  rw [State.onsetWork, HopChange.woke, hpart]
  by_cases hup : s.wakesUp = true
  · have hcond : s.sc.part = .standby ∧ (s.hopped h).pt.record.voiced = true ∧ (s.hopped h).pt.prevVoiced = false
        ∧ (s.hopped h).sc.wakeOnVoice = true := by
      rw [State.wakesUp, Bool.and_eq_true, Bool.and_eq_true, Bool.and_eq_true, decide_eq_true_iff, Bool.not_eq_true'] at hup
      obtain ⟨⟨⟨hstandby, hvoiced⟩, hprev⟩, hwake⟩ := hup
      exact ⟨hstandby, hvoiced, hprev, hwake⟩
    rw [if_pos hcond, if_pos hup, State.returnToLive_eq, hlive]
    have hsc : ({ (s.hopped h).sc with part := .live, liveEntry := true } : StateController)
        = s.sc.hopped (hopCauses h.gone h.changed) true := by
      rw [StateController.hopped, Bool.or_true]
      rfl
    exact congrArg (fun sc => { s.hopped h with sc := sc, link := h.link.woken (!s.sc.liveEntry) }) hsc
  · have hcond : ¬(s.sc.part = .standby ∧ (s.hopped h).pt.record.voiced = true ∧ (s.hopped h).pt.prevVoiced = false
        ∧ (s.hopped h).sc.wakeOnVoice = true) := by
      rintro ⟨hstandby, hvoiced, hprev, hwake⟩
      refine hup ?_
      rw [State.wakesUp, decide_eq_true hstandby, show s.pt.record.voiced = true from hvoiced,
        show s.pt.prevVoiced = false from hprev, show s.sc.wakeOnVoice = true from hwake]
      rfl
    rw [if_neg hcond, if_neg hup]

theorem State.atPlace_hopped (s : State) (o : HopOrder) (p : Place) {h : HopChange}
    (hages : o.ageing = p → h.peers = s.peers ∧ h.cu.mode = s.cu.mode) (hwakes : o.onset = p → h.wakes = false) :
    (s.hopped h).atPlace o p = s.hopped (h.visit s o p) := by
  have hage := s.ageAtPlace_hopped o p hages
  rw [State.ageAtPlace] at hage
  rw [State.atPlace, hage, HopChange.visit]
  by_cases hp : o.onset = p
  · have hstill : (h.ageAt s o p).wakes = false := by
      rw [HopChange.ageAt]
      split
      · exact hwakes hp
      · exact hwakes hp
    rw [if_pos hp, if_pos hp, State.onsetWork_hopped s hstill]
  · rw [if_neg hp, if_neg hp]

/-- R35: the Context Unit's work on a hop's change made so far, `u` being a state whose Context Unit and peers it has. -/
theorem State.contextWork_of_hopped (s : State) {u : State} {h : HopChange} (hcu : h.cu = u.cu) (hpeers : h.peers = u.peers)
    (hpt : u.pt = s.pt) (hcfg : u.cfg = s.cfg) (hheld : u.cu.held = s.cu.held) (hkey : u.cu.key = s.cu.key) :
    (s.hopped h).contextWork = (s.hopped (h.context s u.contextAfter),
      { heldChanged := decide (u.contextAfter.held ≠ s.cu.held), keyChanged := decide (u.contextAfter.key ≠ s.cu.key) }) := by
  have hafter : (s.hopped h).contextAfter = u.contextAfter := State.contextAfter_congr hcu hpt.symm hcfg.symm hpeers
  have hheld' : (s.hopped h).cu.held = s.cu.held := (congrArg ContextUnit.held hcu).trans hheld
  have hkey' : (s.hopped h).cu.key = s.cu.key := (congrArg ContextUnit.key hcu).trans hkey
  rw [State.contextWork_hopped, hafter, hheld', hkey', State.hopped_hopped]
  have hgone : (h.gone || false) = h.gone := Bool.or_false _
  have hwakes : (h.wakes || false) = h.wakes := Bool.or_false _
  rw [show (s.hopped h).noChange.gone = false from rfl, show (s.hopped h).noChange.wakes = false from rfl, hgone, hwakes]
  rfl

end Sys2Proof.Machine
end

section
/-! PROOFS. The free hop (R7, R35, R108): the Context Unit, the ageing at its place, and the link. -/

namespace Sys2Proof.Machine

/-! ## What the Context Unit leaves, wherever the ageing is taken -/

/-- The state whose Context Unit and Peer Table the Context Unit's work at a hop reads. -/
def State.contextBase (s : State) (age : Place) : State := if age = .beforeContext then s.ageing else s

/-- R35, R109: the hop changes the held note. -/
def State.heldMoves (s : State) (age : Place) : Bool := decide ((s.contextAtHop age).held ≠ s.cu.held)

/-- R35, R110: the hop changes the key. -/
def State.keyMoves (s : State) (age : Place) : Bool := decide ((s.contextAtHop age).key ≠ s.cu.key)

theorem ContextUnit.released_frame (b : Bool) (c : ContextUnit) :
    (c.released b).held = c.held ∧ (c.released b).key = c.key := by cases b <;> exact ⟨rfl, rfl⟩

theorem State.contextBase_frame (s : State) (age : Place) :
    (s.contextBase age).pt = s.pt ∧ (s.contextBase age).cfg = s.cfg
    ∧ (s.contextBase age).cu.held = s.cu.held ∧ (s.contextBase age).cu.key = s.cu.key := by
  rw [State.contextBase]
  split
  · obtain ⟨hcu, hpt, hcfg⟩ := s.ageing_frame
    obtain ⟨hheld, hkey⟩ := s.cu.released_frame s.pinExpires
    rw [hcu]
    exact ⟨hpt, hcfg, hheld, hkey⟩
  · exact ⟨rfl, rfl, rfl, rfl⟩

theorem State.contextAtHop_frame (s : State) (age : Place) :
    (s.contextAtHop age).held = (s.contextBase age).contextAfter.held
    ∧ (s.contextAtHop age).key = (s.contextBase age).contextAfter.key := by
  rw [State.contextAtHop, State.contextBase]
  split
  · exact ⟨rfl, rfl⟩
  · exact s.contextAfter.released_frame s.pinExpires

/-! ## The change up to the link's work -/

namespace HopChange

theorem ageAt_of_ne (s : State) {o : HopOrder} {p : Place} (h : o.ageing ≠ p) (k : HopChange) : k.ageAt s o p = k := if_neg h

end HopChange

/-- The link controller once the Peer Table has aged, when the order takes that at a place (R50, R110). -/
def LinkController.agedAt (s : State) (o : HopOrder) (p : Place) (l : LinkController) : LinkController :=
  if s.pinExpires = true ∧ o.ageing = p then l.offerKey else l

theorem HopChange.ageAt_link (s : State) (o : HopOrder) (p : Place) (h : HopChange) :
    (h.ageAt s o p).link = h.link.agedAt s o p := by
  rw [HopChange.ageAt, LinkController.agedAt]
  by_cases hp : o.ageing = p
  · rw [if_pos hp]
    exact if_congr (and_iff_left hp).symm rfl rfl
  · rw [if_neg hp, if_neg fun h => hp h.2]

theorem LinkController.agedAt_of_ne (s : State) {o : HopOrder} {p : Place} (h : o.ageing ≠ p) (l : LinkController) :
    l.agedAt s o p = l := if_neg fun hp => h hp.2

/-- R7: the change of a free hop. -/
def State.freeChange (s : State) (o : HopOrder) : HopChange :=
  { cu := s.contextAtHop o.ageing
    peers := s.ageing.peers
    gone := (List.finRange 8).any s.peerExpires
    changed := s.pinExpires || s.keyMoves o.ageing
    cleared := s.pinExpires || (s.heldMoves o.ageing || s.keyMoves o.ageing)
    wakes := false
    link := ((((s.link.agedAt s o .beforeContext).agedAt s o .afterContext).freeHop (s.heldMoves o.ageing)
      (s.keyMoves o.ageing) s.cfg.refresh).agedAt s o .afterLink).agedAt s o .afterPlanner }

/-- R35: the Context Unit's work on the change made before it. -/
theorem State.contextWork_stage (s : State) (o : HopOrder) (h : HopChange)
    (hcu : h.cu = (s.contextBase o.ageing).cu) (hpeers : h.peers = (s.contextBase o.ageing).peers) :
    (s.hopped h).contextWork = (s.hopped (h.context s (s.contextBase o.ageing).contextAfter),
      { heldChanged := s.heldMoves o.ageing, keyChanged := s.keyMoves o.ageing }) := by
  obtain ⟨hpt, hcfg, hheld, hkey⟩ := s.contextBase_frame o.ageing
  obtain ⟨hheld', hkey'⟩ := s.contextAtHop_frame o.ageing
  rw [s.contextWork_of_hopped hcu hpeers hpt hcfg hheld hkey, State.heldMoves, State.keyMoves, hheld', hkey']

/-- Before the Context Unit's work nothing has changed but what an ageing then changes. -/
theorem State.beforeContext_base (s : State) (o : HopOrder) :
    (s.noChange.ageAt s o .beforeContext).cu = (s.contextBase o.ageing).cu
    ∧ (s.noChange.ageAt s o .beforeContext).peers = (s.contextBase o.ageing).peers := by
  rw [HopChange.ageAt, State.contextBase]
  by_cases h : o.ageing = .beforeContext
  · rw [if_pos h, if_pos h, s.ageing_frame.1]
    exact ⟨rfl, by dsimp only [HopChange.aged]⟩
  · rw [if_neg h, if_neg h]
    exact ⟨rfl, rfl⟩

namespace HopChange

/-- The Peer Table and the mode are still those before the hop. -/
abbrev Unaged (s : State) (h : HopChange) : Prop := h.peers = s.peers ∧ h.cu.mode = s.cu.mode

theorem Unaged.ageAt {s : State} {o : HopOrder} {p q : Place} {h : HopChange} (hh : h.Unaged s) (hne : q ≠ p)
    (hp : o.ageing = p) : (h.ageAt s o q).Unaged s := by
  rwa [HopChange.ageAt_of_ne s fun hq => hne (hq.symm.trans hp)]

/-- R35: the Context Unit's part of a hop's change. -/
theorem context_eq (s : State) (age : Place) (h : HopChange) : h.context s (s.contextBase age).contextAfter = { h with
    cu := (s.contextBase age).contextAfter
    changed := h.changed || s.keyMoves age
    cleared := h.cleared || (s.heldMoves age || s.keyMoves age) } := by
  obtain ⟨hheld, hkey⟩ := s.contextAtHop_frame age
  rw [HopChange.context, State.heldMoves, State.keyMoves, hheld, hkey]

/-- R35: up to the link controller's work nothing has aged that ages later. -/
theorem unaged_context (s : State) {o : HopOrder} {p : Place} (hp : o.ageing = p) (hne : p ≠ .beforeContext) :
    ((s.noChange.ageAt s o .beforeContext).context s (s.contextBase o.ageing).contextAfter).Unaged s := by
  have hage : o.ageing ≠ .beforeContext := fun h => hne (hp.symm.trans h)
  rw [HopChange.ageAt_of_ne s hage]
  refine ⟨rfl, ?_⟩
  rw [State.contextBase, if_neg hage]
  obtain ⟨-, -, -, -, hmode, -⟩ := s.contextAfter_frame
  exact hmode

end HopChange

/-- R7, R35, R108: the work of a free hop is one change. -/
theorem State.freeHopWork_eq (s : State) (o : HopOrder) : s.freeHopWork o = s.hopped (s.freeChange o) := by
  obtain ⟨hcu, hpeers⟩ := s.beforeContext_base o
  have hbefore := s.ageAtPlace_hopped o .beforeContext (h := s.noChange) fun _ => ⟨rfl, rfl⟩
  rw [State.hopped_noChange] at hbefore
  have hlink : ∀ (h : HopChange) (sig : HopSignals), (s.hopped h).linkHopWork false sig
      = s.hopped { h with link := h.link.freeHop sig.heldChanged sig.keyChanged s.cfg.refresh } :=
    fun h sig => State.linkHopWork_free sig (s.hopped h)
  rw [State.freeHopWork, hbefore, s.contextWork_stage o _ hcu hpeers]
  dsimp only
  set h1 := s.noChange.ageAt s o .beforeContext with hh1
  set h2 := h1.context s (s.contextBase o.ageing).contextAfter with hh2
  rw [s.ageAtPlace_hopped o .afterContext (h := h2) fun hp => HopChange.unaged_context s hp nofun, hlink]
  have hunaged : ∀ p, p ≠ .beforeContext → .afterContext ≠ p → o.ageing = p → (h2.ageAt s o .afterContext).Unaged s :=
    fun p hbefore hafter hp => (HopChange.unaged_context s hp hbefore).ageAt hafter hp
  set h4 : HopChange := { h2.ageAt s o .afterContext with
    link := (h2.ageAt s o .afterContext).link.freeHop (s.heldMoves o.ageing) (s.keyMoves o.ageing) s.cfg.refresh } with hh4
  have hlate : ∀ p, p ≠ .beforeContext → .afterContext ≠ p → o.ageing = p → h4.Unaged s := hunaged
  rw [s.ageAtPlace_hopped o .afterLink (h := h4) (hlate _ nofun nofun), s.ageAtPlace_hopped o .afterPlanner
    (h := h4.ageAt s o .afterLink) fun hp =>
      HopChange.Unaged.ageAt (p := .afterPlanner) (hlate .afterPlanner nofun nofun hp) nofun hp]
  rw [hh4, hh2, HopChange.context_eq, hh1]
  congr 1
  rw [State.freeChange, State.contextAtHop, State.contextBase]
  cases hage : o.ageing with
  | beforeContext =>
    simp only [HopChange.ageAt, LinkController.agedAt, hage, HopChange.aged, State.noChange, reduceCtorEq, and_true,
      and_false, if_true, if_false, Bool.false_or]
  | afterContext =>
    simp only [HopChange.ageAt, LinkController.agedAt, hage, HopChange.aged, State.noChange, reduceCtorEq, and_true,
      and_false, if_true, if_false, Bool.false_or, Bool.or_comm s.pinExpires]
  | afterLink =>
    simp only [HopChange.ageAt, LinkController.agedAt, hage, HopChange.aged, State.noChange, reduceCtorEq, and_true,
      and_false, if_true, if_false, Bool.false_or, Bool.or_comm s.pinExpires]
  | afterPlanner =>
    simp only [HopChange.ageAt, LinkController.agedAt, hage, HopChange.aged, State.noChange, reduceCtorEq, and_true,
      and_false, if_true, if_false, Bool.false_or, Bool.or_comm s.pinExpires]

/-! ## What the link keeps at a hop -/

/-- R104: what an offer to the queue leaves alone. -/
structure LinkController.SameSlot (a b : LinkController) : Prop where
  state : b.state = a.state
  lastVoiced : b.lastVoiced = a.lastVoiced
  leadCount : b.leadCount = a.leadCount
  frame : b.slot.map (·.frame) = a.slot.map (·.frame)

namespace LinkController.SameSlot

variable {a b : LinkController}

protected theorem rfl : a.SameSlot a := ⟨rfl, rfl, rfl, rfl⟩

theorem offer (h : a.SameSlot b) (e : Entry) : a.SameSlot (b.offer e) := by
  obtain ⟨queue, slot, quiet, drops, heq, hframe, -⟩ := b.offer_frame e
  rw [heq]
  exact ⟨h.state, h.lastVoiced, h.leadCount, hframe.trans h.frame⟩

theorem offerKey (h : a.SameSlot b) : a.SameSlot b.offerKey :=
  ⟨(h.offer .key).state, (h.offer .key).lastVoiced, (h.offer .key).leadCount, (h.offer .key).frame⟩

theorem agedAt (h : a.SameSlot b) (s : State) (o : HopOrder) (p : Place) : a.SameSlot (b.agedAt s o p) := by
  rw [LinkController.agedAt]
  split
  · exact h.offerKey
  · exact h

theorem keyAtHop (h : a.SameSlot b) (keyChanged : Bool) : a.SameSlot (b.keyAtHop keyChanged) := by
  have hcount : a.SameSlot { b with keyCount := b.keyCount + 1 } := ⟨h.state, h.lastVoiced, h.leadCount, h.frame⟩
  rw [LinkController.keyAtHop]
  split
  · exact hcount.offerKey
  · exact hcount

theorem quietAtHop (h : a.SameSlot b) (refresh : Nat) : a.SameSlot (b.quietAtHop refresh) := by
  have hcount : a.SameSlot { b with quietCount := b.quietCount + 1 } := ⟨h.state, h.lastVoiced, h.leadCount, h.frame⟩
  rw [LinkController.quietAtHop]
  split
  · have hhello := hcount.offer (.hello false)
    exact ⟨hhello.state, hhello.lastVoiced, hhello.leadCount, hhello.frame⟩
  · exact hcount

end LinkController.SameSlot

/-! ## The link, offer by offer -/

theorem LinkController.keyAtHop_eq (p : Prop) [Decidable p] (l : LinkController) : l.keyAtHop (decide p)
    = if p ∨ 128 ≤ l.keyCount + 1 then LinkController.offerKey { l with keyCount := l.keyCount + 1 }
      else { l with keyCount := l.keyCount + 1 } := by
  refine if_congr ?_ rfl rfl
  rw [Bool.or_eq_true, decide_eq_true_iff, decide_eq_true_iff]

theorem LinkController.agedAt_agedAt (s : State) (o : HopOrder) {p q : Place} (hne : p ≠ q) (l : LinkController) :
    (l.agedAt s o p).agedAt s o q = if s.pinExpires = true ∧ (o.ageing = p ∨ o.ageing = q) then l.offerKey else l := by
  rw [LinkController.agedAt, LinkController.agedAt]
  by_cases hp : o.ageing = p
  · have hq : o.ageing ≠ q := fun h => hne (hp.symm.trans h)
    rw [if_neg fun h => hq h.2]
    exact if_congr (and_congr_right fun _ => (iff_of_true hp (.inl hp))) rfl rfl
  · rw [if_neg (t := l.offerKey) fun h => hp h.2]
    exact if_congr (and_congr_right fun _ => (or_iff_right hp).symm) rfl rfl

theorem State.freeHop_falls {s : State} (htimer : s.ap.freeTimer = true) (hpart : s.sc.part ≠ .init) (o : HopOrder) :
    s.freeHop o = s.freeHopWork o := if_pos ⟨htimer, (State.hopsFall_iff s).2 hpart⟩

/-- The voices after a hop's change to the Context Unit. -/
theorem State.hopped_voice (s : State) (h : HopChange) (v : VoiceIx) : (s.hopped h).voices[v] = { s.voices[v] with
    plan := { s.voices[v].plan with freeCount := if h.cleared then 0 else s.voices[v].plan.freeCount } } := by
  have hvoices : (s.hopped h).voices = if h.cleared then s.clearFreeCounts.voices else s.voices := rfl
  cases hc : h.cleared with
  | false =>
    rw [hc] at hvoices
    exact congrArg (fun vs : Vector Voice 8 => vs[v]) hvoices
  | true =>
    rw [hc] at hvoices
    exact (congrArg (fun vs : Vector Voice 8 => vs[v]) hvoices).trans (s.clearFreeCounts_get v)

/-- R109 to R111: what the link keeps at a free hop, the LEAD count apart. -/
theorem State.freeChange_link (s : State) (o : HopOrder) : (s.freeChange o).link.state = s.link.state
    ∧ (s.freeChange o).link.lastVoiced = s.link.lastVoiced
    ∧ (s.freeChange o).link.slot.map (·.frame) = s.link.slot.map (·.frame) := by
  have hearly := ((LinkController.SameSlot.rfl (a := s.link)).agedAt s o .beforeContext).agedAt s o .afterContext
  rw [State.freeChange]
  dsimp only
  generalize (s.link.agedAt s o .beforeContext).agedAt s o .afterContext = l at hearly
  set l' := if s.heldMoves o.ageing then { l.offer .lead with leadCount := 0 } else l with hl'
  have hlead : l'.state = s.link.state ∧ l'.lastVoiced = s.link.lastVoiced
      ∧ l'.slot.map (·.frame) = s.link.slot.map (·.frame) := by
    rw [hl']
    split
    · exact ⟨(hearly.offer .lead).state, (hearly.offer .lead).lastVoiced, (hearly.offer .lead).frame⟩
    · exact ⟨hearly.state, hearly.lastVoiced, hearly.frame⟩
  have hlate := ((((LinkController.SameSlot.rfl (a := l')).keyAtHop (s.keyMoves o.ageing)).quietAtHop s.cfg.refresh).agedAt
    s o .afterLink).agedAt s o .afterPlanner
  obtain ⟨hstate, hlast, hframe⟩ := hlead
  exact ⟨hlate.state.trans hstate, hlate.lastVoiced.trans hlast, hlate.frame.trans hframe⟩

/-- Settles O11: the free hop is one change, its link offer by offer. -/
theorem freeHopLeavesLeadAndVoices : Obligations.FreeHopLeavesLeadAndVoices := by
  intro o s hrel htimer hpart
  have hcontext : s.contextHop (s.hopped (s.freeChange o)) s.pt.record o.ageing := State.contextHop_of
    (by dsimp only [State.hopped, State.freeChange]) (by dsimp only [State.hopped, State.freeChange])
  have hexec : exec (.freeHop o) s = .next (s.hopped (s.freeChange o)) := by
    rw [exec_freeHop o hrel, State.freeHop_falls htimer hpart, State.freeHopWork_eq]
  obtain ⟨hstate, hlast, hframe⟩ := s.freeChange_link o
  have hcu : (s.freeChange o).cu = s.contextAtHop o.ageing := by rw [State.freeChange]
  have hgone : (s.freeChange o).gone = (List.finRange 8).any s.peerExpires := by rw [State.freeChange]
  have hchanged : (s.freeChange o).changed
      = decide (s.pinExpires = true ∨ (s.freeChange o).cu.key ≠ s.cu.key) := by
    rw [Bool.decide_or, hcu, Bool.decide_eq_true]
    rfl
  have hcleared : (s.freeChange o).cleared = decide ((s.freeChange o).cu.held ≠ s.cu.held ∨ (s.freeChange o).cu.key ≠ s.cu.key
      ∨ s.pinExpires = true) := by
    rw [Bool.decide_or, Bool.decide_or, hcu, Bool.decide_eq_true, ← Bool.or_assoc, Bool.or_comm]
    rfl
  have hwakes : (s.freeChange o).wakes = false := by rw [State.freeChange]
  have hlink : (s.freeChange o).link = ((((s.link.agedAt s o .beforeContext).agedAt s o .afterContext).freeHop
      (decide ((s.freeChange o).cu.held ≠ s.cu.held)) (decide ((s.freeChange o).cu.key ≠ s.cu.key))
      s.cfg.refresh).agedAt s o .afterLink).agedAt s o .afterPlanner := by
    rw [hcu]
    rfl
  generalize s.freeChange o = k at hcontext hexec hstate hlast hframe hcu hgone hchanged hcleared hwakes hlink
  obtain ⟨-, -, hdecision, -⟩ := id hcontext
  refine ⟨s.hopped k, hexec, rfl, rfl, rfl, rfl, rfl, rfl, ?_, hdecision, fun v => ?_, hstate, hlast,
    hframe, rfl, hcontext, fun v => ?_, fun raised hraised => ?_, ?_⟩
  · show (if k.wakes then _ else _) = _
    rw [hwakes]
    rfl
  · rw [State.hopped_voice]
    exact ⟨rfl, rfl, rfl⟩
  · rw [State.hopped_voice, hcleared]
    exact if_congr decide_eq_true_iff rfl rfl
  · have hcauses : hopCauses k.gone k.changed = raised := by
      rw [hraised, hopCauses, hgone, hchanged]
      exact congrArg (_ ||| ·) (if_congr decide_eq_true_iff rfl rfl)
    show s.sc.hopped (hopCauses k.gone k.changed) k.wakes = _
    rw [hcauses, hwakes, StateController.hopped, Bool.or_false]
    rfl
  · intro key hkeyfn l0 l1 l2 l3 l4 l5 h0 h1 h2 h3 h4 h5
    obtain rfl : key = LinkController.offerKey := funext hkeyfn
    have e0 : (s.link.agedAt s o .beforeContext).agedAt s o .afterContext = l0 :=
      (LinkController.agedAt_agedAt s o (p := .beforeContext) (q := .afterContext) nofun _).trans h0.symm
    have e1 : (if decide (k.cu.held ≠ s.cu.held) then { l0.offer .lead with leadCount := 0 } else l0) = l1 :=
      (if_congr decide_eq_true_iff rfl rfl).trans h1.symm
    have e3 : l1.keyAtHop (decide (k.cu.key ≠ s.cu.key)) = l3 := by
      rw [LinkController.keyAtHop_eq, h3, h2]
      rfl
    have e5 : l3.quietAtHop s.cfg.refresh = l5 := by
      rw [LinkController.quietAtHop, h5, h4]
    refine hlink.trans ?_
    rw [e0, LinkController.freeHop, e1, e3, e5,
      LinkController.agedAt_agedAt s o (p := .afterLink) (q := .afterPlanner) nofun]

end Sys2Proof.Machine
end

section
/-! PROOFS. The hand-over to one voice: the table of gain commands, the entry to ONSET and the claim that follows (R68, R72 to R77,
R130, R131). -/

namespace Sys2Proof.Machine.Voice

/-! ## Sounding -/

theorem sounds_cases {st : VoiceState} (h : st.sounding = true) : st = .onset ∨ st = .sound ∨ st = .hold := by
  cases st with
  | onset => exact .inl rfl
  | sound => exact .inr (.inl rfl)
  | hold => exact .inr (.inr rfl)
  | off | idle | fade => cases h

/-! ## The entry to ONSET -/

/-- R131: the engine of a voice that enters ONSET, before its grain. -/
def onsetEngine (vo : Voice) : Engine :=
  { vo.eng with
    state := .onset, disablePending := false, epoch := vo.eng.reload
    envelope := if vo.eng.state = .fade then vo.eng.envelope else 0 }

theorem enterOnset_of_none {env : RenderEnv} (h : sourceMark env.history.newest env.marks = none) (vo : Voice) :
    vo.enterOnset env
      = { vo with eng := { vo.onsetEngine with starve := min 255 (vo.onsetEngine.starve + 1) } } := by
  rw [enterOnset]
  dsimp only
  rw [startGrain_of_none h]
  rfl

theorem enterOnset_of_mark {env : RenderEnv} {m : Mark} (h : sourceMark env.history.newest env.marks = some m) (vo : Voice) :
    vo.enterOnset env = { vo with eng := vo.onsetEngine.addGrain m.grain } := by
  rw [enterOnset]
  dsimp only
  rw [startGrain_of_mark h]
  rfl

/-! ## The table of gain commands -/

theorem gainCommand_of_off {vo : Voice} (h : vo.eng.state = .off) (env : RenderEnv) (raise voiced : Bool) :
    vo.gainCommand env raise voiced = vo := by
  rw [gainCommand.eq_def, h]

theorem gainCommand_of_silent {vo : Voice} (h : vo.eng.state = .idle ∨ vo.eng.state = .fade) (env : RenderEnv) (voiced : Bool) :
    vo.gainCommand env true true = vo.enterOnset env ∧ vo.gainCommand env true false = vo
      ∧ vo.gainCommand env false voiced = vo := by
  refine ⟨?_, ?_, ?_⟩ <;> rw [gainCommand.eq_def] <;> rcases h with h | h <;> rw [h]

theorem gainCommand_of_onset_sound {vo : Voice} (h : vo.eng.state = .onset ∨ vo.eng.state = .sound) (env : RenderEnv) :
    vo.gainCommand env true true = vo ∧ vo.gainCommand env true false = vo.loseLead env.holdLimit := by
  refine ⟨?_, ?_⟩ <;> rw [gainCommand.eq_def] <;> rcases h with h | h <;> rw [h]

theorem gainCommand_of_hold {vo : Voice} (h : vo.eng.state = .hold) (env : RenderEnv) :
    vo.gainCommand env true true = { vo with eng := { vo.eng with state := .sound } } ∧ vo.gainCommand env true false = vo := by
  refine ⟨?_, ?_⟩ <;> rw [gainCommand.eq_def, h]

theorem gainCommand_release {vo : Voice} (h : vo.eng.state.sounding = true) (env : RenderEnv) (voiced : Bool) :
    vo.gainCommand env false voiced = vo.toFade := by
  rw [gainCommand.eq_def]
  rcases sounds_cases h with hstate | hstate | hstate <;> rw [hstate]

/-- R68: a gain command leaves the words, the reload buffer and the period. -/
theorem gainCommand_frame (env : RenderEnv) (raise voiced : Bool) (vo : Voice) :
    (vo.gainCommand env raise voiced).cfg = vo.cfg ∧ (vo.gainCommand env raise voiced).eng.reload = vo.eng.reload
      ∧ (vo.gainCommand env raise voiced).plan.period = vo.plan.period := by
  have honset : (vo.enterOnset env).cfg = vo.cfg ∧ (vo.enterOnset env).eng.reload = vo.eng.reload
      ∧ (vo.enterOnset env).plan.period = vo.plan.period := by
    cases hmark : sourceMark env.history.newest env.marks with
    | none =>
      rw [enterOnset_of_none hmark]
      exact ⟨rfl, rfl, rfl⟩
    | some m =>
      rw [enterOnset_of_mark hmark, Engine.addGrain_eq]
      exact ⟨rfl, rfl, rfl⟩
  have hlose : (vo.loseLead env.holdLimit).cfg = vo.cfg ∧ (vo.loseLead env.holdLimit).eng.reload = vo.eng.reload
      ∧ (vo.loseLead env.holdLimit).plan.period = vo.plan.period := by
    rw [loseLead]
    split <;> exact ⟨rfl, rfl, rfl⟩
  unfold gainCommand
  split
  case h_2 | h_4 => exact honset
  case h_9 | h_10 => exact hlose
  all_goals exact ⟨rfl, rfl, rfl⟩

/-! ## The claim after the gain command -/

/-- R73 to R77: the claim work sets the claim and the refresh count alone. -/
theorem claimWork_frame (cfg : Setup) (v : VoiceIx) (before after : Voice) : ∃ claim n,
    (claimWork cfg v before after).1 = { after with plan := { after.plan with claim := claim, refreshCount := n } } := by
  rw [claimWork]
  split
  · split
    · split
      case h_1 c n hc _ =>
        split
        · rcases settles_or_not cfg.settle after c with hdue | hunsettled
          · exact ⟨_, _, by rw [claimStands_of_settled cfg v hc hdue.1 hdue.2]⟩
          · exact ⟨_, _, by rw [claimStands_of_unsettled cfg v hc hunsettled]⟩
        · exact ⟨_, _, rfl⟩
      case h_2 => exact ⟨_, _, rfl⟩
    · exact ⟨_, _, rfl⟩
  · split
    · split <;> exact ⟨_, _, rfl⟩
    · exact ⟨_, _, rfl⟩

/-- R68: after a hand-over the reload buffer holds the voice's synthesis period. -/
theorem handOver_frame (env : RenderEnv) (cfg : Setup) (voiced : Bool) (v : VoiceIx) (vo : Voice) :
    (vo.handOver env cfg voiced v).1.cfg = vo.cfg
      ∧ (vo.handOver env cfg voiced v).1.eng.reload = (vo.handOver env cfg voiced v).1.plan.period := by
  set loaded : Voice := { vo with eng := { vo.eng with reload := vo.plan.period } } with hloaded
  obtain ⟨hcfg, hreload, hperiod⟩ := loaded.gainCommand_frame env vo.plan.decided.isSome voiced
  obtain ⟨claim, n, hwork⟩ := claimWork_frame cfg v loaded (loaded.gainCommand env vo.plan.decided.isSome voiced)
  rw [handOver, ← hloaded, hwork]
  exact ⟨hcfg, hreload.trans hperiod.symm⟩

theorem claimWork_of_silent (cfg : Setup) (v : VoiceIx) {b a : Voice} (hb : b.eng.state.sounding = false)
    (ha : a.eng.state.sounding = false) : claimWork cfg v b a = (a, none) := by
  rw [claimWork, hb, ha]
  rfl

theorem claimWork_of_faded (cfg : Setup) (v : VoiceIx) {b a : Voice} (hb : b.eng.state.sounding = true)
    (ha : a.eng.state.sounding = false) : claimWork cfg v b a = (a, some (.drop v)) := by
  rw [claimWork, hb, ha]
  rfl

/-- R73, R74: the claim is created or replaced. -/
theorem claimWork_of_new (cfg : Setup) (v : VoiceIx) {b a : Voice} {n : Nat} (ha : a.eng.state.sounding = true)
    (hn : a.plan.decided = some n)
    (h : b.eng.state.sounding = false ∨ (∃ c, a.plan.claim = some c ∧ c.note ≠ n)) : claimWork cfg v b a
      = (a.withClaim { note := n, firm := false, settle := 0 },
          some (a.claimEntry v { note := n, firm := false, settle := 0 })) := by
  rw [claimWork, ha, hn]
  cases hb : b.eng.state.sounding with
  | false => rfl
  | true =>
    obtain ⟨c, hc, hne⟩ := h.resolve_left (by rw [hb]; exact Bool.false_ne_true.symm)
    rw [hc, if_pos rfl, if_pos rfl]
    exact if_neg fun heq => hne heq.symm

/-- R75, R77: a claim on the decided note stands. -/
theorem claimWork_of_same (cfg : Setup) (v : VoiceIx) {b a : Voice} {c : LocalClaim} (hb : b.eng.state.sounding = true)
    (ha : a.eng.state.sounding = true) (hn : a.plan.decided = some c.note) (hc : a.plan.claim = some c) :
    claimWork cfg v b a = a.claimStands cfg v := by
  rw [claimWork, hb, ha, hn, hc, if_pos rfl, if_pos rfl]
  exact if_pos rfl

end Sys2Proof.Machine.Voice
end

section
/-! PROOFS. The synced hop up to its planner (R6, R35, R108, R165): the blocks at their places as one change. -/

namespace Sys2Proof.Machine

/-! ## A visit at a place -/

/-- The link controller at a place of a synced hop: the ageing's KEY and the wake's HELLO (R50, R110, R112, R165). -/
def LinkController.visited (s : State) (o : HopOrder) (p : Place) (l : LinkController) : LinkController :=
  if s.wakesUp = true ∧ o.onset = p then (l.agedAt s o p).woken (!s.sc.liveEntry) else l.agedAt s o p

/-- A visit as the ageing with the wake beside it. -/
theorem HopChange.visit_eq (s : State) (o : HopOrder) (p : Place) (h : HopChange) : h.visit s o p = { h.ageAt s o p with
    wakes := h.wakes || (s.wakesUp && decide (o.onset = p)), link := h.link.visited s o p } := by
  have hlink := h.ageAt_link s o p
  have hwakes : (h.ageAt s o p).wakes = h.wakes := by
    rw [HopChange.ageAt]
    split <;> rfl
  rw [HopChange.visit, LinkController.visited, ← hlink, ← hwakes]
  by_cases hp : o.onset = p
  · rw [if_pos hp, HopChange.woke, decide_eq_true hp, Bool.and_true]
    cases hup : s.wakesUp with
    | true => rw [if_pos rfl, if_pos ⟨rfl, hp⟩, Bool.or_true]
    | false => rw [if_neg Bool.false_ne_true, if_neg fun h => Bool.false_ne_true h.1, Bool.or_false]
  · rw [if_neg hp, if_neg fun h => hp h.2, decide_eq_false hp, Bool.and_false, Bool.or_false]

theorem LinkController.visited_sameLead (s : State) (o : HopOrder) (p : Place) (l : LinkController) :
    (l.visited s o p).lastVoiced = l.lastVoiced ∧ (l.visited s o p).leadCount = l.leadCount := by
  have hage := (LinkController.SameSlot.rfl (a := l)).agedAt s o p
  rw [LinkController.visited]
  split
  · rw [LinkController.woken]
    split
    · have hfirst := (((LinkController.SameSlot.rfl (a := { l.agedAt s o p with
        state := .active, stuckMonitor := .dominant })).offer (.hello true)).offerKey).offer (.hello false)
      exact ⟨hfirst.lastVoiced.trans hage.lastVoiced, hfirst.leadCount.trans hage.leadCount⟩
    · exact ⟨(hage.offer (.hello false)).lastVoiced, (hage.offer (.hello false)).leadCount⟩
  · exact ⟨hage.lastVoiced, hage.leadCount⟩

/-! ## Up to the planner -/

/-- What a synced hop has changed when the planner reads it. -/
def State.planChange (s : State) (o : HopOrder) : HopChange :=
  let aged : Bool := decide (o.ageing ≠ .afterPlanner)
  { cu := if aged then s.contextAtHop o.ageing else s.contextAfter
    peers := if aged then s.ageing.peers else s.peers
    gone := aged && (List.finRange 8).any s.peerExpires
    changed := (aged && s.pinExpires) || s.keyMoves o.ageing
    cleared := (aged && s.pinExpires) || (s.heldMoves o.ageing || s.keyMoves o.ageing)
    wakes := s.wakesUp && decide (o.onset ≠ .afterPlanner)
    link := (((s.link.visited s o .beforeContext).visited s o .afterContext).syncedHop (s.heldMoves o.ageing)
      (s.keyMoves o.ageing) s.pt.record.voiced s.cfg.refresh).visited s o .afterLink }

/-- The part has not been woken at an earlier place. -/
theorem HopChange.visit_wakes (s : State) {o : HopOrder} {p q : Place} {h : HopChange} (hh : h.wakes = false) (hne : q ≠ p)
    (hp : o.onset = p) : (h.visit s o q).wakes = false := by
  rw [HopChange.visit_eq, decide_eq_false fun hq => hne (hq.symm.trans hp), Bool.and_false, Bool.or_false]
  exact hh

theorem HopChange.Unaged.visit {s : State} {o : HopOrder} {p q : Place} {h : HopChange} (hh : h.Unaged s) (hne : q ≠ p)
    (hp : o.ageing = p) : (h.visit s o q).Unaged s := by
  rw [HopChange.visit_eq]
  exact hh.ageAt hne hp

theorem HopChange.visit_cu (s : State) (o : HopOrder) (p : Place) (h : HopChange) :
    (h.visit s o p).cu = (h.ageAt s o p).cu ∧ (h.visit s o p).peers = (h.ageAt s o p).peers := by
  rw [HopChange.visit_eq]
  exact ⟨rfl, rfl⟩

/-- R35: up to the link controller's work nothing has aged that ages later. -/
theorem HopChange.unaged_contextVisit (s : State) {o : HopOrder} {p : Place} (hp : o.ageing = p) (hne : p ≠ .beforeContext) :
    ((s.noChange.visit s o .beforeContext).context s (s.contextBase o.ageing).contextAfter).Unaged s := by
  have h := HopChange.unaged_context s hp hne
  rw [HopChange.visit_eq]
  exact h

/-- The changes at the places before the planner, gathered. -/
theorem State.planChange_eq (s : State) (o : HopOrder) :
    HopChange.visit s o .afterLink { (HopChange.visit s o .afterContext
        ((s.noChange.visit s o .beforeContext).context s (s.contextBase o.ageing).contextAfter)) with
      link := (HopChange.visit s o .afterContext
          ((s.noChange.visit s o .beforeContext).context s (s.contextBase o.ageing).contextAfter)).link.syncedHop
        (s.heldMoves o.ageing) (s.keyMoves o.ageing) s.pt.record.voiced s.cfg.refresh } = s.planChange o := by
  have hwakes : ∀ w : Bool, (((false || (w && decide (o.onset = .beforeContext))) || (w && decide (o.onset = .afterContext)))
      || (w && decide (o.onset = .afterLink))) = (w && decide (o.onset ≠ .afterPlanner)) := by
    intro w
    cases o.onset <;> cases w <;> rfl
  simp only [HopChange.visit_eq, HopChange.context_eq]
  rw [State.planChange, State.contextAtHop, State.contextBase, ← hwakes]
  cases hage : o.ageing with
  | beforeContext =>
    simp only [HopChange.ageAt, hage, HopChange.aged, State.noChange, reduceCtorEq, if_true, if_false, Bool.false_or, ne_eq,
      not_false_eq_true, decide_true, Bool.true_and]
  | afterContext =>
    simp only [HopChange.ageAt, hage, HopChange.aged, State.noChange, reduceCtorEq, if_true, if_false, Bool.false_or, ne_eq,
      not_false_eq_true, decide_true, Bool.true_and, Bool.or_comm s.pinExpires]
  | afterLink =>
    simp only [HopChange.ageAt, hage, HopChange.aged, State.noChange, reduceCtorEq, if_true, if_false, Bool.false_or, ne_eq,
      not_false_eq_true, decide_true, Bool.true_and, Bool.or_comm s.pinExpires]
  | afterPlanner =>
    simp only [HopChange.ageAt, hage, State.noChange, reduceCtorEq, if_false, Bool.false_or, ne_eq,
      not_true_eq_false, decide_false, Bool.false_and, Bool.false_eq_true]

/-- The state of a synced hop when the planner reads it, from the state `s` the tracker leaves. -/
theorem State.toPlanner_eq (s : State) (o : HopOrder) :
    ((((s.atPlace o .beforeContext).contextWork.1.atPlace o .afterContext).linkHopWork true
      (s.atPlace o .beforeContext).contextWork.2).atPlace o .afterLink) = s.hopped (s.planChange o) := by
  have hbefore := s.atPlace_hopped o .beforeContext (h := s.noChange) (fun _ => ⟨rfl, rfl⟩) fun _ => rfl
  rw [State.hopped_noChange] at hbefore
  obtain ⟨hcu, hpeers⟩ := s.beforeContext_base o
  obtain ⟨hcu', hpeers'⟩ := HopChange.visit_cu s o .beforeContext s.noChange
  have hlink : ∀ (h : HopChange) (sig : HopSignals), (s.hopped h).linkHopWork true sig
      = s.hopped { h with link := h.link.syncedHop sig.heldChanged sig.keyChanged s.pt.record.voiced s.cfg.refresh } :=
    fun h sig => State.linkHopWork_synced sig (s.hopped h)
  rw [hbefore, s.contextWork_stage o _ (hcu'.trans hcu) (hpeers'.trans hpeers)]
  dsimp only
  have hwakes : ∀ p, .beforeContext ≠ p → o.onset = p →
      ((s.noChange.visit s o .beforeContext).context s (s.contextBase o.ageing).contextAfter).wakes = false :=
    fun p hne hp => HopChange.visit_wakes s (h := s.noChange) rfl hne hp
  have hunaged : ∀ p, p ≠ .beforeContext → o.ageing = p →
      ((s.noChange.visit s o .beforeContext).context s (s.contextBase o.ageing).contextAfter).Unaged s :=
    fun p hne hp => HopChange.unaged_contextVisit s hp hne
  rw [← State.planChange_eq]
  generalize (s.noChange.visit s o .beforeContext).context s (s.contextBase o.ageing).contextAfter = k at hwakes hunaged
  rw [s.atPlace_hopped o .afterContext (hunaged _ nofun) (hwakes _ nofun), hlink]
  exact s.atPlace_hopped o .afterLink
    (fun hp => HopChange.Unaged.visit (p := .afterLink) (q := .afterContext) (hunaged .afterLink nofun hp) nofun hp)
    (fun hp => HopChange.visit_wakes s (p := .afterLink) (q := .afterContext) (hwakes .afterLink nofun hp) nofun hp)

end Sys2Proof.Machine
end

section
/-! PROOFS. The synced hop whole (R6, R9, R17, R35, R68, R108): the planner's and the renderer's work between the blocks, and the
obligation. -/

namespace Sys2Proof.Machine

/-! ## The planner's and the renderer's work -/

/-- R55, R68: what the hop makes of one voice, and the entry its claim offers. -/
def State.handedOver (s : State) (v : VoiceIx) : Voice × Option Entry :=
  s.planVoices.voices[v].handOver s.renderEnv s.cfg s.pt.record.voiced v

theorem LinkController.foldl_offerSome {α : Type} (f : α → Option Entry) (xs : List α) (l : LinkController) :
    xs.foldl (fun l x => l.offerSome (f x)) l = (xs.filterMap f).foldl LinkController.offer l := by
  induction xs generalizing l with
  | nil => rfl
  | cons x xs ih =>
    rw [List.foldl_cons, ih, List.filterMap_cons]
    cases f x <;> rfl

theorem State.plannerWork_eq (s : State) : s.plannerWork = { s with
    voices := Vector.ofFn fun v => (s.handedOver v).1
    link := ((List.finRange 8).filterMap fun v => (s.handedOver v).2).foldl LinkController.offer s.link } := by
  obtain ⟨voices, hplan, -⟩ := s.planVoices_planned
  have hhanded : s.handedOver
      = fun v : VoiceIx => voices[v].handOver s.renderEnv s.cfg s.pt.record.voiced v := by
    funext v
    rw [State.handedOver, hplan]
  rw [State.plannerWork, hplan, State.handOverAll, State.foldAllVoices_spec, LinkController.foldl_offerSome, hhanded]
  rfl

/-! ## The last place -/

/-- What the last place of a synced hop reads of the hop's start has stood until then. -/
structure State.LastPlace (s q : State) (o : HopOrder) : Prop where
  cfg : q.cfg = s.cfg
  pt : q.pt = s.pt
  wake : q.sc.wakeOnVoice = s.sc.wakeOnVoice
  ages : o.ageing = .afterPlanner → q.peers = s.peers ∧ q.cu.mode = s.cu.mode
  wakes : o.onset = .afterPlanner → q.sc.part = s.sc.part ∧ q.sc.liveEntry = s.sc.liveEntry

namespace State.LastPlace

variable {s q : State} {o : HopOrder}

theorem peerExpires (h : s.LastPlace q o) (hage : o.ageing = .afterPlanner) : q.peerExpires = s.peerExpires :=
  funext fun p => State.peerExpires_congr h.cfg (congrArg (fun ps : Vector (Option PeerRecord) 8 => ps[p]) (h.ages hage).1)

theorem pinExpires (h : s.LastPlace q o) (hage : o.ageing = .afterPlanner) : q.pinExpires = s.pinExpires := by
  rw [State.pinExpires, State.pinExpires, h.peerExpires hage, (h.ages hage).2]

theorem agedPeers (h : s.LastPlace q o) (hage : o.ageing = .afterPlanner) : q.ageing.peers = s.ageing.peers := by
  have haged : q.agedPeer = s.agedPeer := funext fun p => State.agedPeer_congr h.cfg
    (congrArg (fun ps : Vector (Option PeerRecord) 8 => ps[p]) (h.ages hage).1)
  rw [State.ageing_eq, State.ageing_eq, haged]
  rfl

theorem wakesUp (h : s.LastPlace q o) (honset : o.onset = .afterPlanner) : q.wakesUp = s.wakesUp := by
  rw [State.wakesUp, State.wakesUp, h.pt, h.wake, (h.wakes honset).1]

theorem agedAt (h : s.LastPlace q o) (l : LinkController) : l.agedAt q o .afterPlanner = l.agedAt s o .afterPlanner := by
  by_cases hage : o.ageing = .afterPlanner
  · rw [LinkController.agedAt, LinkController.agedAt, h.pinExpires hage]
  · rw [LinkController.agedAt_of_ne q hage, LinkController.agedAt_of_ne s hage]

theorem visited (h : s.LastPlace q o) (l : LinkController) : l.visited q o .afterPlanner = l.visited s o .afterPlanner := by
  rw [LinkController.visited, LinkController.visited, h.agedAt]
  by_cases honset : o.onset = .afterPlanner
  · rw [h.wakesUp honset, (h.wakes honset).2]
  · rw [if_neg fun hw => honset hw.2, if_neg fun hw => honset hw.2]

end State.LastPlace

/-- The blocks after the planner, in what they change. -/
theorem State.LastPlace.atPlace_eq {s q : State} {o : HopOrder} (h : s.LastPlace q o) :
    q.atPlace o .afterPlanner = q.hopped
      { cu := if o.ageing = .afterPlanner then q.cu.released s.pinExpires else q.cu
        peers := if o.ageing = .afterPlanner then s.ageing.peers else q.peers
        gone := decide (o.ageing = .afterPlanner) && (List.finRange 8).any s.peerExpires
        changed := decide (o.ageing = .afterPlanner) && s.pinExpires
        cleared := decide (o.ageing = .afterPlanner) && s.pinExpires
        wakes := s.wakesUp && decide (o.onset = .afterPlanner)
        link := q.link.visited s o .afterPlanner } := by
  have hplace := q.atPlace_hopped o .afterPlanner (h := q.noChange) (fun _ => ⟨rfl, rfl⟩) fun _ => rfl
  have hwakes : (q.wakesUp && decide (o.onset = .afterPlanner)) = (s.wakesUp && decide (o.onset = .afterPlanner)) := by
    by_cases honset : o.onset = .afterPlanner
    · rw [h.wakesUp honset]
    · rw [decide_eq_false honset, Bool.and_false, Bool.and_false]
  rw [State.hopped_noChange, HopChange.visit_eq] at hplace
  rw [hplace, hwakes, h.visited, HopChange.ageAt]
  congr 1
  by_cases hage : o.ageing = .afterPlanner
  · rw [if_pos hage, if_pos hage, if_pos hage, decide_eq_true hage, HopChange.aged, h.agedPeers hage, h.pinExpires hage,
      h.peerExpires hage]
    simp only [State.noChange, Bool.false_or, Bool.true_and]
  · rw [if_neg hage, if_neg hage, if_neg hage, decide_eq_false hage]
    simp only [State.noChange, Bool.false_or, Bool.false_and]

/-! ## The whole hop -/

/-- R6, R9, R17: the state whose count is back at 0 and whose tracker has worked. -/
def State.tracked (s : State) : State := State.trackerWork { s with ap := { s.ap with hopCount := 0 } }

/-- The state the planner reads, from the state the tracker leaves. -/
def State.atPlanner (s : State) (o : HopOrder) : State := s.hopped (s.planChange o)

/-- The link when the planner's entries are offered, and the last place has been taken. -/
def State.syncedLink (s : State) (o : HopOrder) : LinkController :=
  (((List.finRange 8).filterMap fun v => ((s.atPlanner o).handedOver v).2).foldl LinkController.offer
    (s.planChange o).link).visited s o .afterPlanner

theorem State.planChange_apart (s : State) (o : HopOrder) : (s.planChange o).wakes = (s.wakesUp && decide (o.onset ≠ .afterPlanner))
    ∧ (o.ageing = .afterPlanner → (s.planChange o).peers = s.peers ∧ (s.planChange o).cu = s.contextAfter)
    ∧ (o.ageing ≠ .afterPlanner → (s.planChange o).peers = s.ageing.peers
      ∧ (s.planChange o).cu = s.contextAtHop o.ageing) := by
  rw [State.planChange]
  refine ⟨rfl, fun hage => ?_, fun hage => ?_⟩
  · dsimp only
    rw [decide_eq_false (not_not_intro hage)]
    exact ⟨rfl, rfl⟩
  · dsimp only
    rw [decide_eq_true hage]
    exact ⟨if_pos rfl, if_pos rfl⟩

theorem State.lastPlace (s : State) (o : HopOrder) : s.LastPlace (s.atPlanner o).plannerWork o := by
  obtain ⟨hwakes, hlate, -⟩ := s.planChange_apart o
  rw [State.plannerWork_eq]
  refine ⟨rfl, rfl, rfl, fun hage => ?_, fun honset => ?_⟩
  · obtain ⟨hpeers, hcu⟩ := hlate hage
    obtain ⟨-, -, -, -, hmode, -⟩ := s.contextAfter_frame
    exact ⟨hpeers, (congrArg ContextUnit.mode hcu).trans hmode⟩
  · rw [decide_eq_false (not_not_intro honset), Bool.and_false] at hwakes
    refine ⟨?_, ?_⟩
    · show (if (s.planChange o).wakes then _ else _) = _
      rw [hwakes]
      rfl
    · show (_ || (s.planChange o).wakes) = _
      rw [hwakes, Bool.or_false]

/-- R6, R35, R68, R108, R165: what a synced hop leaves, whatever its order, from the state `s` the tracker leaves. -/
def State.syncedResult (s : State) (o : HopOrder) : State :=
  { s with
    cu := s.contextAtHop o.ageing
    peers := s.ageing.peers
    sc := s.sc.hopped (hopCauses ((List.finRange 8).any s.peerExpires) (s.pinExpires || s.keyMoves o.ageing)) s.wakesUp
    voices := if o.ageing = .afterPlanner ∧ s.pinExpires = true then (s.atPlanner o).plannerWork.clearFreeCounts.voices
      else (s.atPlanner o).plannerWork.voices
    link := s.syncedLink o }

theorem Bool.apart_or (b : Bool) (p : Prop) [Decidable p] : ((decide ¬p && b) || (decide p && b)) = b := by
  by_cases h : p <;> cases b <;> simp [h]

theorem State.syncedHopWork_eq (s : State) (o : HopOrder) : s.syncedHopWork o = s.tracked.syncedResult o := by
  have hplanner : s.syncedHopWork o = (s.tracked.atPlanner o).plannerWork.atPlace o .afterPlanner :=
    congrArg (fun t : State => t.plannerWork.atPlace o .afterPlanner) (s.tracked.toPlanner_eq o)
  rw [hplanner, (s.tracked.lastPlace o).atPlace_eq]
  generalize s.tracked = u
  obtain ⟨hwakes, hlate, hearly⟩ := u.planChange_apart o
  have hsc : (u.sc.hopped (hopCauses (u.planChange o).gone (u.planChange o).changed) (u.planChange o).wakes).hopped
        (hopCauses (decide (o.ageing = .afterPlanner) && (List.finRange 8).any u.peerExpires)
          (decide (o.ageing = .afterPlanner) && u.pinExpires)) (u.wakesUp && decide (o.onset = .afterPlanner))
      = u.sc.hopped (hopCauses ((List.finRange 8).any u.peerExpires) (u.pinExpires || u.keyMoves o.ageing)) u.wakesUp := by
    rw [StateController.hopped_hopped, hopCauses_or, hwakes]
    congr 1
    · congr 1
      · rw [State.planChange]
        exact Bool.apart_or _ _
      · rw [State.planChange]
        dsimp only
        rw [Bool.or_right_comm, Bool.apart_or]
    · rw [Bool.and_comm, Bool.and_comm u.wakesUp]
      exact Bool.apart_or _ _
  have hvoices : (if decide (o.ageing = .afterPlanner) && u.pinExpires then
        (u.atPlanner o).plannerWork.clearFreeCounts.voices else (u.atPlanner o).plannerWork.voices)
      = if o.ageing = .afterPlanner ∧ u.pinExpires = true then (u.atPlanner o).plannerWork.clearFreeCounts.voices
        else (u.atPlanner o).plannerWork.voices := by
    refine if_congr ?_ rfl rfl
    rw [Bool.and_eq_true, decide_eq_true_iff]
  rw [State.hopped, State.syncedResult]
  dsimp only
  rw [hvoices, State.syncedLink, ← hsc]
  rw [State.plannerWork_eq]
  by_cases hage : o.ageing = .afterPlanner
  · obtain ⟨-, hcu⟩ := hlate hage
    have hcu' : ((u.planChange o).cu.released u.pinExpires) = u.contextAtHop o.ageing := by
      rw [hcu, hage, State.contextAtHop, if_neg nofun]
    rw [if_pos hage, if_pos hage, ← hcu']
    rfl
  · obtain ⟨hpeers, hcu⟩ := hearly hage
    rw [if_neg hage, if_neg hage, ← hcu, ← hpeers]
    rfl

/-! ## What the hop reads of the state before the tracker -/

theorem State.tracked_ageing (s : State) : s.tracked.ageing.peers = s.ageing.peers := by
  have haged : s.tracked.agedPeer = s.agedPeer := rfl
  rw [State.ageing_eq, State.ageing_eq, haged]
  rfl

theorem State.contextHop_tracked {s t : State} {r : PitchRecord} {age : Place} (h : s.tracked.contextHop t r age) :
    s.contextHop t r age := by
  have hlead : ∀ u w : State, u.peers = w.peers → u.soundingLead = w.soundingLead := by
    intro u w hpeers
    funext p
    rw [State.soundingLead, State.soundingLead, hpeers]
  have hleads : (if age = .beforeContext then s.tracked.ageing else s.tracked).soundingLead
      = (if age = .beforeContext then s.ageing else s).soundingLead := by
    by_cases hage : age = .beforeContext
    · rw [if_pos hage, if_pos hage]
      exact hlead _ _ s.tracked_ageing
    · rw [if_neg hage, if_neg hage]
      exact hlead _ _ rfl
  rw [State.contextHop, hleads, s.tracked_ageing] at h
  exact h

/-! ## The link of the hop -/

theorem LinkController.foldl_offer_sameSlot {a : LinkController} (es : List Entry) {b : LinkController} (h : a.SameSlot b) :
    a.SameSlot (es.foldl LinkController.offer b) := by
  induction es generalizing b with
  | nil => exact h
  | cons e es ih => exact ih (h.offer e)

/-- R37, R108 to R110: the LEAD's trigger in the words of its condition. -/
theorem LinkController.leadSynced_eq {p : Prop} [Decidable p] (voiced : Bool) (l : LinkController) :
    l.leadSynced (decide ¬p) voiced = { (if ¬p ∨ voiced ≠ l.lastVoiced ∨ (voiced = true ∧ 4 ≤ l.leadCount + 1) then
        l.offer .lead else l) with
      lastVoiced := voiced
      leadCount := if p ∧ voiced = true ∧ l.lastVoiced = true ∧ l.leadCount + 1 < 4 then l.leadCount + 1 else 0 } := by
  have hoffer : (decide (¬p) || voiced != l.lastVoiced || (voiced && decide (4 ≤ l.leadCount + 1))) = true
      ↔ ¬p ∨ voiced ≠ l.lastVoiced ∨ (voiced = true ∧ 4 ≤ l.leadCount + 1) := by
    simp only [Bool.or_eq_true, Bool.and_eq_true, decide_eq_true_iff, bne_iff_ne, or_assoc]
  have hcount : (!decide (¬p) && voiced && l.lastVoiced && decide (l.leadCount + 1 < 4)) = true
      ↔ p ∧ voiced = true ∧ l.lastVoiced = true ∧ l.leadCount + 1 < 4 := by
    simp only [Bool.and_eq_true, decide_eq_true_iff, Bool.not_eq_true', decide_eq_false_iff_not, not_not, and_assoc]
  rw [LinkController.leadSynced, if_congr hoffer rfl rfl, if_congr hcount rfl rfl]

/-- R108, R109: the last voiced flag and the LEAD count are those of the LEAD's trigger. -/
theorem State.syncedLink_lead (s : State) (o : HopOrder) : (s.syncedLink o).lastVoiced = s.pt.record.voiced
    ∧ (s.syncedLink o).leadCount = if (s.contextAtHop o.ageing).held = s.cu.held ∧ s.pt.record.voiced = true
        ∧ s.link.lastVoiced = true ∧ s.link.leadCount + 1 < 4 then s.link.leadCount + 1 else 0 := by
  obtain ⟨hvoicedB, hcountB⟩ := LinkController.visited_sameLead s o .beforeContext s.link
  obtain ⟨hvoicedA, hcountA⟩ := LinkController.visited_sameLead s o .afterContext (s.link.visited s o .beforeContext)
  have hvoiced := hvoicedA.trans hvoicedB
  have hcount := hcountA.trans hcountB
  rw [State.syncedLink, State.planChange]
  dsimp only
  generalize (s.link.visited s o .beforeContext).visited s o .afterContext = l at hvoiced hcount
  set l1 := l.leadSynced (s.heldMoves o.ageing) s.pt.record.voiced with hl1
  have hlink := ((LinkController.SameSlot.rfl (a := l1)).keyAtHop (s.keyMoves o.ageing)).quietAtHop s.cfg.refresh
  obtain ⟨hvoicedL, hcountL⟩ := LinkController.visited_sameLead s o .afterLink
    ((l1.keyAtHop (s.keyMoves o.ageing)).quietAtHop s.cfg.refresh)
  rw [LinkController.syncedHop, ← hl1]
  generalize ((l1.keyAtHop (s.keyMoves o.ageing)).quietAtHop s.cfg.refresh).visited s o .afterLink = l5 at hvoicedL hcountL
  have hoffers := LinkController.foldl_offer_sameSlot
    ((List.finRange 8).filterMap fun v => ((s.atPlanner o).handedOver v).2) (LinkController.SameSlot.rfl (a := l5))
  obtain ⟨hvoicedP, hcountP⟩ := LinkController.visited_sameLead s o .afterPlanner
    (((List.finRange 8).filterMap fun v => ((s.atPlanner o).handedOver v).2).foldl LinkController.offer l5)
  rw [hvoicedP, hcountP, hoffers.lastVoiced, hoffers.leadCount, hvoicedL, hcountL, hlink.lastVoiced, hlink.leadCount, hl1,
    State.heldMoves, LinkController.leadSynced_eq, hvoiced, hcount]
  exact ⟨rfl, rfl⟩

/-- R102, R110, R112, R165: the visits of a hop in the words of an offer. -/
theorem LinkController.visited_eq (s : State) (o : HopOrder) {key woken : LinkController → LinkController}
    (hkey : ∀ l, key l = { l.offer .key with keyCount := 0 })
    (hwoken : ∀ l, woken l = LinkController.offer (if s.sc.liveEntry = false ∧ l.state = .listen then
        key ({ l with state := .active, stuckMonitor := .dominant }.offer (.hello true)) else l) (.hello false))
    (place : Place) (l : LinkController) : l.visited s o place = if s.wakesUp = true ∧ o.onset = place then
        woken (if s.pinExpires = true ∧ o.ageing = place then key l else l)
      else if s.pinExpires = true ∧ o.ageing = place then key l else l := by
  obtain rfl : key = LinkController.offerKey := funext hkey
  have hwake : ∀ l, woken l = l.woken (!s.sc.liveEntry) := by
    intro l
    rw [hwoken, LinkController.woken]
    exact congrArg (fun l : LinkController => l.offer (.hello false))
      (if_congr (and_congr_left fun _ => (iff_of_eq (Bool.not_eq_true' _)).symm) rfl rfl)
  rw [LinkController.visited, LinkController.agedAt, hwake]

end Sys2Proof.Machine
end

section
/-! PROOFS. The synced hop: the obligation (R6, R9, R17, R26, R30, R35 to R43, R68, R72 to R78, R108 to R111, R122, R130, R131,
R165). -/

namespace Sys2Proof.Machine

theorem State.syncedHop_falls {s : State} (hsync : s.ap.syncPresent = true) (hcount : 256 ≤ s.ap.hopCount)
    (hpart : s.sc.part ≠ .init) (o : HopOrder) : s.syncedHopDue o = s.tracked.syncedResult o :=
  (State.syncedHopDue_falls hsync hcount hpart o).trans (s.syncedHopWork_eq o)

/-- R68: the voices of a synced hop, those of a released pin's free counts among them. -/
theorem State.syncedResult_voice (s : State) (o : HopOrder) (v : VoiceIx) : (s.syncedResult o).voices[v]
    = if s.pinExpires = true ∧ o.ageing = .afterPlanner then
        { ((s.atPlanner o).handedOver v).1 with plan := { ((s.atPlanner o).handedOver v).1.plan with freeCount := 0 } }
      else ((s.atPlanner o).handedOver v).1 := by
  have hget : (s.atPlanner o).plannerWork.voices[v] = ((s.atPlanner o).handedOver v).1 := by
    rw [State.plannerWork_eq]
    exact Vector.getElem_ofFn v.isLt
  have hvoices : (s.syncedResult o).voices = if o.ageing = .afterPlanner ∧ s.pinExpires = true then
      (s.atPlanner o).plannerWork.clearFreeCounts.voices else (s.atPlanner o).plannerWork.voices := rfl
  rw [hvoices]
  by_cases h : s.pinExpires = true ∧ o.ageing = .afterPlanner
  · rw [if_pos h.symm, if_pos h, State.clearFreeCounts_get, hget]
  · rw [if_neg fun hboth => h hboth.symm, if_neg h, hget]

/-- R68: a voice handed over has its words, and its period in the reload buffer. -/
theorem State.handedOver_frame (s : State) (v : VoiceIx) : (s.handedOver v).1.cfg = s.voices[v].cfg
    ∧ (s.handedOver v).1.eng.reload = (s.handedOver v).1.plan.period := by
  obtain ⟨voices, hplan, hplanned⟩ := s.planVoices_planned
  obtain ⟨hcfg, hreload⟩ := s.planVoices.voices[v].handOver_frame s.renderEnv s.cfg s.pt.record.voiced v
  have hwords : s.planVoices.voices[v].cfg = s.voices[v].cfg := by
    rw [hplan]
    exact (hplanned v).words
  exact ⟨hcfg.trans hwords, hreload⟩

/-- R6, R35, R108, R165: the first part of the statement, from the state `s` before the hop. -/
theorem State.syncedHop_whole {s : State} (o : HopOrder) (hrel : s.sc.resetHeld = false) (hsync : s.ap.syncPresent = true)
    (hcount : s.ap.hopCount = 256) (hpart : s.sc.part ≠ .init) :
    exec (.syncedHop o) s = .next (s.tracked.syncedResult o) := by
  rw [exec_syncedHop o hrel, State.syncedHop_falls hsync hcount.ge hpart]

/-- What the planner of a synced hop reads. -/
theorem State.atPlanner_reads (s : State) (o : HopOrder) :
    (s.atPlanner o).peers = (if o.ageing = .afterPlanner then s.peers else s.ageing.peers)
    ∧ (s.atPlanner o).cu.held = (s.contextAtHop o.ageing).held ∧ (s.atPlanner o).cu.key = (s.contextAtHop o.ageing).key
    ∧ (s.atPlanner o).sc.part = (if s.wakesUp = true ∧ o.onset ≠ .afterPlanner then .live else s.sc.part) := by
  obtain ⟨hwakes, hlate, hearly⟩ := s.planChange_apart o
  have hpart : (s.atPlanner o).sc.part = if (s.planChange o).wakes then .live else s.sc.part := rfl
  refine ⟨?_, ?_, ?_, ?_⟩
  · by_cases hage : o.ageing = .afterPlanner
    · rw [if_pos hage]
      exact (hlate hage).1
    · rw [if_neg hage]
      exact (hearly hage).1
  · by_cases hage : o.ageing = .afterPlanner
    · refine (congrArg ContextUnit.held (hlate hage).2).trans ?_
      rw [hage, State.contextAtHop, if_neg nofun, (s.contextAfter.released_frame s.pinExpires).1]
    · exact congrArg ContextUnit.held (hearly hage).2
  · by_cases hage : o.ageing = .afterPlanner
    · refine (congrArg ContextUnit.key (hlate hage).2).trans ?_
      rw [hage, State.contextAtHop, if_neg nofun, (s.contextAfter.released_frame s.pinExpires).2]
    · exact congrArg ContextUnit.key (hearly hage).2
  · rw [hpart, hwakes]
    refine if_congr ?_ rfl rfl
    rw [Bool.and_eq_true, decide_eq_true_iff]

/-- R88, R89: the voices the planner of a synced hop reads. -/
theorem State.atPlanner_voice (s : State) (o : HopOrder) (v : VoiceIx) : (s.atPlanner o).voices[v]
    = if (s.contextAtHop o.ageing).held ≠ s.cu.held ∨ (s.contextAtHop o.ageing).key ≠ s.cu.key
        ∨ (s.pinExpires = true ∧ o.ageing ≠ .afterPlanner) then
      { s.voices[v] with plan := { s.voices[v].plan with freeCount := 0 } }
    else s.voices[v] := by
  have hcleared : (s.planChange o).cleared = true ↔ (s.contextAtHop o.ageing).held ≠ s.cu.held
      ∨ (s.contextAtHop o.ageing).key ≠ s.cu.key ∨ (s.pinExpires = true ∧ o.ageing ≠ .afterPlanner) := by
    rw [State.planChange]
    dsimp only
    rw [Bool.or_eq_true, Bool.or_eq_true, Bool.and_eq_true, State.heldMoves, State.keyMoves, decide_eq_true_iff,
      decide_eq_true_iff, decide_eq_true_iff, or_comm, or_assoc, and_comm]
  rw [State.atPlanner, State.hopped_voice]
  by_cases h : (s.planChange o).cleared = true
  · rw [if_pos h, if_pos (hcleared.1 h)]
  · rw [if_neg h, if_neg fun hc => h (hcleared.2 hc)]

/-- R51, R123, R165: the State Controller after a synced hop. -/
theorem State.syncedResult_sc (s : State) (o : HopOrder) {raised : BitVec 7}
    (hraised : raised = (if (List.finRange 8).any s.peerExpires then 0x08 else 0)
      ||| (if s.pinExpires = true ∨ (s.contextAtHop o.ageing).key ≠ s.cu.key then 0x10 else 0)) :
    (s.syncedResult o).sc = { s.sc with
      part := if s.wakesUp then .live else s.sc.part
      liveEntry := s.sc.liveEntry || s.wakesUp
      causes := s.sc.causes ||| raised
      capture := s.sc.capture.map fun
        | .attn k => .attn (k &&& ~~~raised)
        | .context k => .context (k && !raised.getLsbD 4) } := by
  have hcauses : hopCauses ((List.finRange 8).any s.peerExpires) (s.pinExpires || s.keyMoves o.ageing) = raised := by
    rw [hraised, hopCauses]
    refine congrArg (_ ||| ·) (if_congr ?_ rfl rfl)
    rw [Bool.or_eq_true, State.keyMoves, decide_eq_true_iff]
  have hsc : (s.syncedResult o).sc = s.sc.hopped
      (hopCauses ((List.finRange 8).any s.peerExpires) (s.pinExpires || s.keyMoves o.ageing)) s.wakesUp := rfl
  rw [hsc, hcauses]
  rfl

/-- R108 to R112, R78: the link of a synced hop, offer by offer. -/
theorem State.syncedLink_eq (s : State) (o : HopOrder) {visit : Place → LinkController → LinkController}
    (hvisit : ∀ place l, visit place l = l.visited s o place) {l0 l1 l2 l3 l4 l5 : LinkController}
    (h0 : l0 = visit .afterContext (visit .beforeContext s.link))
    (h1 : l1 = { (if (s.contextAtHop o.ageing).held ≠ s.cu.held ∨ s.pt.record.voiced ≠ s.link.lastVoiced
          ∨ (s.pt.record.voiced = true ∧ 4 ≤ s.link.leadCount + 1) then l0.offer .lead else l0) with
        lastVoiced := s.pt.record.voiced, leadCount := (s.syncedLink o).leadCount })
    (h2 : l2 = { l1 with keyCount := l1.keyCount + 1 })
    (h3 : l3 = (if (s.contextAtHop o.ageing).key ≠ s.cu.key ∨ 128 ≤ l2.keyCount then
        { l2.offer .key with keyCount := 0 } else l2))
    (h4 : l4 = { l3 with quietCount := l3.quietCount + 1 })
    (h5 : l5 = (if s.cfg.refresh ≤ l4.quietCount then { l4.offer (.hello false) with quietCount := 0 } else l4)) :
    s.syncedLink o = visit .afterPlanner
      (((List.finRange 8).filterMap fun v => ((s.atPlanner o).handedOver v).2).foldl LinkController.offer
        (visit .afterLink l5)) := by
  obtain ⟨-, hcount⟩ := s.syncedLink_lead o
  obtain ⟨hvoicedB, hcountB⟩ := LinkController.visited_sameLead s o .beforeContext s.link
  obtain ⟨hvoicedA, hcountA⟩ := LinkController.visited_sameLead s o .afterContext (s.link.visited s o .beforeContext)
  obtain rfl : visit = fun place l => l.visited s o place := funext fun place => funext fun l => hvisit place l
  have hvoiced0 : l0.lastVoiced = s.link.lastVoiced := by rw [h0, hvoicedA, hvoicedB]
  have hcount0 : l0.leadCount = s.link.leadCount := by rw [h0, hcountA, hcountB]
  have e1 : l0.leadSynced (s.heldMoves o.ageing) s.pt.record.voiced = l1 := by
    rw [State.heldMoves, LinkController.leadSynced_eq, hvoiced0, hcount0, h1, hcount]
  have e3 : l1.keyAtHop (s.keyMoves o.ageing) = l3 := by
    rw [State.keyMoves, LinkController.keyAtHop_eq, h3, h2]
    rfl
  have e5 : l3.quietAtHop s.cfg.refresh = l5 := by
    rw [LinkController.quietAtHop, h5, h4]
  rw [State.syncedLink]
  congr 2
  rw [State.planChange]
  dsimp only
  rw [← e5, ← e3, ← e1, h0]
  rfl

/-- R6: what a synced hop leaves but for the voices and the State Controller. -/
theorem State.syncedResult_frame (s : State) (o : HopOrder) : (s.syncedResult o).ap = s.ap ∧ (s.syncedResult o).hm = s.hm
    ∧ (s.syncedResult o).bm = s.bm ∧ (s.syncedResult o).cfg = s.cfg ∧ (s.syncedResult o).inp = s.inp
    ∧ (s.syncedResult o).pt = s.pt ∧ (s.syncedResult o).pending = s.pending
    ∧ (s.syncedResult o).cu = s.contextAtHop o.ageing ∧ (s.syncedResult o).peers = s.ageing.peers
    ∧ (s.syncedResult o).link = s.syncedLink o := by
  rw [State.syncedResult]
  dsimp only
  exact ⟨rfl, rfl, rfl, rfl, rfl, rfl, rfl, rfl, rfl, rfl⟩

theorem State.tracked_frame (s : State) : s.tracked.ap = { s.ap with hopCount := 0 } ∧ s.tracked.hm = s.hm
    ∧ s.tracked.bm = s.bm ∧ s.tracked.cfg = s.cfg ∧ s.tracked.inp = { s.inp with level := s.hm.hopLevel }
    ∧ s.tracked.pt.record = s.hopRecord s.hm.hopLevel ∧ s.tracked.pt.prevVoiced = s.pt.record.voiced
    ∧ s.tracked.pt.lastVoiced = s.pt.lastVoiced.after (s.hopRecord s.hm.hopLevel)
    ∧ s.tracked.pt.marks = markWork s.hm (s.hopRecord s.hm.hopLevel) s.pt.record.voiced s.pt.marks
    ∧ s.tracked.cu = s.cu ∧ s.tracked.link = s.link ∧ s.tracked.sc = s.sc ∧ s.tracked.voices = s.voices
    ∧ s.tracked.peers = s.peers ∧ s.tracked.pending = s.pending := by
  rw [State.tracked, State.trackerWork]
  dsimp only
  exact ⟨rfl, rfl, rfl, rfl, rfl, rfl, rfl, rfl, rfl, rfl, rfl, rfl, rfl, rfl, rfl⟩

theorem State.atPlanner_frame (s : State) (o : HopOrder) : (s.atPlanner o).cfg = s.cfg ∧ (s.atPlanner o).hm = s.hm
    ∧ (s.atPlanner o).pt = s.pt ∧ (s.atPlanner o).sc.station = s.sc.station := by
  rw [State.atPlanner, State.hopped]
  dsimp only
  exact ⟨rfl, rfl, rfl, rfl⟩

end Sys2Proof.Machine
end

section
/-! PROOFS. The synced hop: the obligation (R6, R9, R17, R26, R30, R35 to R43, R68, R72 to R78, R108 to R111, R122, R130, R131,
R165). -/

namespace Sys2Proof.Machine

theorem State.tracked_expires (s : State) : s.tracked.pinExpires = s.pinExpires ∧ s.tracked.peerExpires = s.peerExpires :=
  ⟨rfl, rfl⟩

/-- R165: the part wakes at a synced hop whose record is the onset of a voiced lead. -/
theorem State.tracked_wakesUp (s : State) : s.tracked.wakesUp = (decide (s.sc.part = .standby) && s.tracked.pt.record.voiced
    && !s.pt.record.voiced && s.sc.wakeOnVoice) := rfl

/-! ## The gain commands, case by case -/

/-- R130: a lost lead takes a voice in ONSET or SOUND to HOLD or FADE. -/
theorem Voice.gainCommand_unvoiced {vo : Voice} (h : vo.eng.state = .onset ∨ vo.eng.state = .sound) (env : RenderEnv) :
    vo.gainCommand env true false = if vo.cfg.fadeOnLoss = false ∧ 0 < env.holdLimit then
        { vo with eng := { vo.eng with state := .hold, holdTimer := 0 } }
      else { vo.withoutClaim with eng := { vo.eng with state := .fade } } :=
  (Voice.gainCommand_of_onset_sound h env).2

/-- R131: the entry to ONSET, without a source mark and with one. -/
theorem Voice.enterOnset_cases (env : RenderEnv) {vo : Voice} {e : Engine} (he : e = vo.onsetEngine) :
    (sourceMark env.history.newest env.marks = none →
      vo.enterOnset env = { vo with eng := { e with starve := min 255 (e.starve + 1) } })
    ∧ ∀ m, sourceMark env.history.newest env.marks = some m →
      vo.enterOnset env = { vo with
        eng := { e with
          grains := (if e.grains.length < 4 then e.grains else e.grains.tail)
            ++ [{ mark := m.pos, period := m.period, index := 0, remaining := 2 * ((m.period + 8) / 16) }]
          cut := if e.grains.length < 4 then e.cut else min 255 (e.cut + 1) } } := by
  subst he
  refine ⟨fun hmark => Voice.enterOnset_of_none hmark vo, fun m hmark => ?_⟩
  rw [Voice.enterOnset_of_mark hmark, Engine.addGrain_eq]
  rfl

/-- R75: in a sounding state but HOLD a hop counts towards SETTLE. -/
theorem Voice.settleAfter_of_sounding {vo : Voice} (h : vo.eng.state.sounding = true) (c : LocalClaim) :
    vo.settleAfter c = if c.firm = false ∧ vo.eng.state ≠ .hold then c.settle + 1 else c.settle := by
  rw [Voice.settleAfter]
  refine if_congr (and_congr_right fun _ => ?_) rfl rfl
  rcases Voice.sounds_cases h with hstate | hstate | hstate <;> rw [hstate]
  · exact iff_of_true (.inl rfl) nofun
  · exact iff_of_true (.inr rfl) nofun
  · exact iff_of_false nofun fun hne => hne rfl

/-- R75, R77: a claim on the decided note settles, is made firm or refreshed. -/
theorem Voice.claimWork_same_cases (cfg : Setup) (v : VoiceIx) {b a : Voice} {c : LocalClaim} {k : Nat}
    (hb : b.eng.state.sounding = true) (ha : a.eng.state.sounding = true) (hn : a.plan.decided = some c.note)
    (hc : a.plan.claim = some c) (hk : k = (if c.firm = false ∧ a.eng.state ≠ .hold then c.settle + 1 else c.settle)) :
    (c.firm = false → cfg.settle ≤ k →
      Voice.claimWork cfg v b a =
        ({ a with plan := { a.plan with claim := some { note := c.note, firm := true, settle := k }, refreshCount := 0 } },
          some (.claim v true a.cfg.rule c.note)))
    ∧ (c.firm = true ∨ k < cfg.settle →
      Voice.claimWork cfg v b a =
        ({ a with
            plan := { a.plan with
              claim := some { c with settle := k }
              refreshCount := if cfg.refresh ≤ a.plan.refreshCount + 1 then 0 else a.plan.refreshCount + 1 } },
          if cfg.refresh ≤ a.plan.refreshCount + 1 then some (.claim v c.firm a.cfg.rule c.note) else none)) := by
  rw [← Voice.settleAfter_of_sounding ha] at hk
  subst hk
  rw [Voice.claimWork_of_same cfg v hb ha hn hc]
  exact ⟨fun hsoft hsettled => Voice.claimStands_of_settled cfg v hc hsoft hsettled,
    fun hunsettled => Voice.claimStands_of_unsettled cfg v hc hunsettled⟩

/-! ## The obligation -/

/-- The links of a hop's visits, from a state that reads the same. -/
theorem State.tracked_visit (s : State) (o : HopOrder) {key woken : LinkController → LinkController} {wakes : Bool}
    (hkey : ∀ l, key l = { l.offer .key with keyCount := 0 })
    (hwoken : ∀ l, woken l = LinkController.offer (if s.sc.liveEntry = false ∧ l.state = .listen then
        key ({ l with state := .active, stuckMonitor := .dominant }.offer (.hello true)) else l) (.hello false))
    (hwakes : wakes = s.tracked.wakesUp) (place : Place) (l : LinkController) :
    (if wakes = true ∧ o.onset = place then woken (if s.pinExpires = true ∧ o.ageing = place then key l else l)
      else if s.pinExpires = true ∧ o.ageing = place then key l else l) = l.visited s.tracked o place := by
  rw [hwakes]
  exact (LinkController.visited_eq s.tracked o hkey hwoken place l).symm

/-- Settles O12: the planner's work between the gathered changes of the other blocks, then the gain commands and the claims case
by case. -/
theorem syncedHopTracksAndHandsOver : Obligations.SyncedHopTracksAndHandsOver := by
  refine ⟨fun o s hrel hsync hcount hpart => ?_, fun _ _ _ _ _ => rfl, fun env raise voiced vo => ?_, fun cfg v b a => ?_⟩
  · have hexec := State.syncedHop_whole o hrel hsync hcount hpart
    obtain ⟨hap, hhm, hbm, hcfg, hinp, hpt, hpending, hcu, hpeers, hlink⟩ := s.tracked.syncedResult_frame o
    obtain ⟨hap', hhm', hbm', hcfg', hinp', hrecord, hprev, hpair, hmarks, hcu', hlink', hsc', hvoices', hpeers', hpending'⟩ :=
      s.tracked_frame
    obtain ⟨hpeersP, hheldP, hkeyP, hpartP⟩ := s.tracked.atPlanner_reads o
    obtain ⟨hcfgP, hhmP, hptP, hstationP⟩ := s.tracked.atPlanner_frame o
    have hcontext : s.contextHop (s.tracked.syncedResult o) s.tracked.pt.record o.ageing :=
      State.contextHop_tracked (State.contextHop_of hcu hpeers)
    obtain ⟨hlast, hlead⟩ := s.tracked.syncedLink_lead o
    have hsc := fun raised => s.tracked.syncedResult_sc o (raised := raised)
    have hvoice := s.tracked.syncedResult_voice o
    have hvoiceP := s.tracked.atPlanner_voice o
    have hframe := (s.tracked.atPlanner o).handedOver_frame
    have hlinkOf := fun visit => s.tracked.syncedLink_eq o (visit := visit)
    have hhanded : (s.tracked.atPlanner o).handedOver = fun v : VoiceIx =>
        (s.tracked.atPlanner o).planVoices.voices[v].handOver (s.tracked.atPlanner o).renderEnv s.cfg
          s.tracked.pt.record.voiced v := by
      rw [← hcfg', ← hcfgP, ← hptP]
      rfl
    have hvisits := fun key woken wakes => s.tracked_visit o (key := key) (woken := woken) (wakes := wakes)
    have haged := s.tracked_ageing
    obtain ⟨hpin, hexpires⟩ := s.tracked_expires
    have hwake := s.tracked_wakesUp
    rw [← hcu] at hheldP hkeyP hlead hsc hvoiceP hlinkOf
    rw [← hlink] at hlast hlead hlinkOf
    rw [hcu'] at hlead hsc hvoiceP hlinkOf
    rw [hhanded] at hvoice hlinkOf hframe
    rw [hpeers', haged] at hpeersP
    rw [hlink'] at hlead hlinkOf
    rw [hsc'] at hpartP hsc hstationP
    rw [hpin] at hsc hvoice hvoiceP
    rw [hexpires] at hsc
    rw [hvoices'] at hvoiceP
    rw [hcfg'] at hlinkOf
    have hcfgV : ∀ v : VoiceIx, (s.tracked.atPlanner o).voices[v].cfg = s.voices[v].cfg := by
      intro v
      rw [hvoiceP]
      split <;> rfl
    generalize s.tracked.syncedResult o = t at *
    refine ⟨t, hexec, hap.trans hap', hhm.trans hhm', hbm.trans hbm', hcfg.trans hcfg', hinp.trans hinp',
      (congrArg PitchTracker.record hpt).trans hrecord, (congrArg PitchTracker.prevVoiced hpt).trans hprev,
      (congrArg PitchTracker.lastVoiced hpt).trans hpair, (congrArg PitchTracker.marks hpt).trans hmarks, fun v => ?_, ?_⟩
    · obtain ⟨hwords, hreload⟩ := hframe v
      rw [hvoice]
      split
      · exact ⟨hwords.trans (hcfgV v), hreload⟩
      · exact ⟨hwords.trans (hcfgV v), hreload⟩
    rw [hpt]
    refine ⟨hcontext, hlast, hlead, fun wakes hwakes => ?_⟩
    rw [← hwake] at hwakes
    rw [hwakes]
    refine ⟨hsc, hpending.trans hpending', s.tracked.atPlanner o, hcfgP.trans hcfg', hhmP.trans hhm', hptP, hheldP, hkeyP,
      hpeersP, hstationP, hpartP, hvoiceP, fun h hh => ?_⟩
    obtain rfl := funext hh
    refine ⟨hvoice, fun key woken visit hkey hwoken hvisit l0 l1 l2 l3 l4 l5 h0 h1 h2 h3 h4 h5 => ?_⟩
    exact hlinkOf visit (fun place l => (hvisit place l).trans (hvisits key woken _ hkey hwoken rfl place l)) h0 h1 h2 h3 h4 h5
  · refine ⟨fun h => Voice.gainCommand_of_off h env raise voiced, fun h => Voice.gainCommand_of_silent h env voiced,
      fun h => ⟨(Voice.gainCommand_of_onset_sound h env).1, Voice.gainCommand_unvoiced h env⟩,
      fun h => Voice.gainCommand_of_hold h env, fun h => Voice.gainCommand_release h env voiced,
      fun e he => Voice.enterOnset_cases env he⟩
  · refine ⟨fun hb ha => Voice.claimWork_of_silent cfg v hb ha, fun hb ha => Voice.claimWork_of_faded cfg v hb ha,
      fun n ha hn => ⟨fun h => Voice.claimWork_of_new cfg v ha hn h, fun c k hb hc hnote hk => ?_⟩⟩
    subst hnote
    exact Voice.claimWork_same_cases cfg v hb ha hn hc hk

end Sys2Proof.Machine
end

section
/-! PROOFS. The audio port's frame sync and sync loss, and the hop they take first (R1, R3, R6, R7, R12, R27, R136, R151, R153,
R154). -/

namespace Sys2Proof.Machine

/-! ## The hop left due -/

/-- R6: a hop left due is the synced hop in the order log 5 names, and none is due after it. -/
theorem State.settleHop_late {s : State} (hrel : s.sc.resetHeld = false) (hsync : s.ap.syncPresent = true)
    (hcount : 256 ≤ s.ap.hopCount) (hpart : s.sc.part ≠ .init) : ∃ t, exec (.syncedHop lateHopOrder) s = .next t
      ∧ t.ap = { s.ap with hopCount := 0 } ∧ t.sc.resetHeld = false ∧ s.settleHop = t.settleHop := by
  have hdue := State.syncedHop_falls hsync hcount hpart lateHopOrder
  obtain ⟨hap, -⟩ := s.tracked.syncedResult_frame lateHopOrder
  have hsc : (s.tracked.syncedResult lateHopOrder).sc.resetHeld = s.sc.resetHeld := by
    rw [State.syncedResult]
    rfl
  rw [State.settleHop, exec_syncedHop lateHopOrder hrel, hdue]
  generalize s.tracked.syncedResult lateHopOrder = t at hap hsc
  have hidle : t.ap.hopCount < 256 := by
    rw [hap]
    exact Nat.zero_lt_succ 255
  exact ⟨t, rfl, hap, hsc.trans hrel, (State.settleHop_idle (.inl hidle)).symm⟩

/-! ## Frame sync -/

/-- R1, R153: with sync present a frame sync begins a frame. -/
theorem State.frameSync_present {s : State} (hidle : s.settleHop = s) (hsync : s.ap.syncPresent = true) :
    s.frameSync = s.beginFrame := by
  rw [State.frameSync, hidle]
  exact congrArg State.beginFrame (if_pos hsync)

/-- R3: with sync lost it is also the sync return. -/
theorem State.frameSync_lost {s : State} (hidle : s.settleHop = s) (hsync : s.ap.syncPresent = false) :
    s.frameSync = s.syncReturn.beginFrame := by
  rw [State.frameSync, hidle]
  exact congrArg State.beginFrame (if_neg (by rw [hsync]; exact Bool.false_ne_true))

/-- Settles O6: by the sync state, a hop left due being taken first. -/
theorem frameSyncBeginsFrame : Obligations.FrameSyncBeginsFrame := by
  refine ⟨fun s hrel hsync hcount hpart => ?_, fun s hrel hsync hnone => ?_, fun s hrel hsync => ?_⟩
  · obtain ⟨t, hexec, hap, hrel', hsettle⟩ := State.settleHop_late hrel hsync hcount hpart
    refine ⟨t, hexec, hap, ?_⟩
    rw [exec_frameSync hrel, exec_frameSync hrel', State.frameSync, State.frameSync, hsettle]
  · rw [exec_frameSync hrel, State.frameSync_present (State.settleHop_idle (hnone.imp_right .inr)) hsync]
    rfl
  · rw [exec_frameSync hrel, State.frameSync_lost (State.settleHop_idle (.inr (.inl hsync))) hsync]
    rfl

/-! ## Sync loss -/

/-- R109: the link controller once the loss has offered its LEAD. -/
def LinkController.leadLost (l : LinkController) : LinkController :=
  { (if l.lastVoiced then { l.offer .lead with leadCount := 0 } else l) with lastVoiced := false }

theorem State.lossLead_eq (s : State) : s.lossLead = { s with link := s.link.leadLost } := by
  rw [State.lossLead, LinkController.leadLost]
  cases s.link.lastVoiced <;> rfl

/-- R76: the DROPs of the voices that sound, in index order. -/
def LinkController.dropsOf (voices : Vector Voice 8) (l : LinkController) : LinkController :=
  ((List.finRange 8).filter fun v => voices[v].eng.state.sounding).foldl (fun l v => l.offer (.drop v)) l

theorem State.stopVoices_eq (s : State) : s.stopVoices = { s with
    voices := Vector.ofFn fun v => s.voices[v].stop.1, link := s.link.dropsOf s.voices } :=
  State.foldPutVoice_eq (fun v => s.voices[v].stop) s

/-- R136: a stopped voice keeps its words; its claim goes when it sounded. -/
theorem Voice.stop_leaves (vo : Voice) : vo.stop.1.cfg = vo.cfg
    ∧ vo.stop.1.eng = { vo.eng with
        state := (match vo.eng.state with
          | .off => .off
          | .idle => .idle
          | _ => if vo.cfg.enabled then .idle else .off)
        disablePending := false, envelope := 0, grains := [] }
    ∧ (vo.eng.state.sounding = true → vo.stop.1.plan = { vo.plan with
        claim := none, decided := none, onAlternate := false, freeCount := 0, doubled := false })
    ∧ (vo.eng.state.sounding = false → vo.stop.1.plan = vo.plan) := by
  refine ⟨?_, rfl, fun hsounds => ?_, fun hsilent => ?_⟩
  · show (if vo.eng.state.sounding = true then vo.withoutClaim else vo).cfg = _
    split <;> rfl
  · show (if vo.eng.state.sounding = true then vo.withoutClaim else vo).plan = _
    rw [if_pos hsounds]
    rfl
  · show (if vo.eng.state.sounding = true then vo.withoutClaim else vo).plan = _
    rw [if_neg (by rw [hsilent]; exact Bool.false_ne_true)]

/-- R3, R109, R136: the link after a sync loss, the LEAD before or after the DROPs. -/
def State.lossLink (s : State) (leadFirst : Bool) : LinkController :=
  if leadFirst then s.link.leadLost.dropsOf s.voices else (s.link.dropsOf s.voices).leadLost

/-- R3: a sync loss, block by block. -/
theorem State.syncLoss_eq (s : State) (leadFirst : Bool) : s.syncLoss leadFirst
    = State.raise .sync { s.lossBlocks.lossCalibration with
        voices := Vector.ofFn fun v => s.voices[v].stop.1, link := s.lossLink leadFirst } := by
  have hvoices : s.lossBlocks.lossCalibration.voices = s.voices ∧ s.lossBlocks.lossCalibration.link = s.link := by
    rw [State.lossCalibration]
    split <;> exact ⟨rfl, rfl⟩
  obtain ⟨hvoices, hlink⟩ := hvoices
  rw [State.syncLoss]
  cases leadFirst with
  | true =>
    refine congrArg (State.raise .sync) ?_
    rw [if_pos rfl, State.lossLead_eq, State.stopVoices_eq, hlink]
    dsimp only
    rw [hvoices]
    rfl
  | false =>
    refine congrArg (State.raise .sync) ?_
    rw [if_neg Bool.false_ne_true, State.stopVoices_eq, State.lossLead_eq, hlink, hvoices]
    rfl

/-- R12: a measurement in progress is abandoned at a sync loss; with none the part and the Input Stage stand. -/
theorem State.lossCalibration_of_none {s : State} (h : s.inp.measurement = none) : s.lossCalibration = s :=
  if_neg (by rw [h]; exact Bool.false_ne_true)

theorem State.lossCalibration_of_some {s : State} {m : Measurement} (h : s.inp.measurement = some m) :
    s.lossCalibration = s.abandonCalibration := if_pos (by rw [h]; rfl)

/-- R3, R27, R154: what a sync loss leaves of the audio port, the tracker and the mixer. -/
theorem State.lossCalibration_blocks (s : State) : s.lossCalibration.ap = s.ap ∧ s.lossCalibration.pt = s.pt
    ∧ s.lossCalibration.hm = s.hm ∧ s.lossCalibration.cu = s.cu ∧ s.lossCalibration.cfg = s.cfg
    ∧ s.lossCalibration.peers = s.peers ∧ s.lossCalibration.bm = s.bm := by
  rw [State.lossCalibration]
  split <;> exact ⟨rfl, rfl, rfl, rfl, rfl, rfl, rfl⟩

theorem BusMixer.atSyncLoss_get (m : BusMixer) (b : BusIx) :
    m.atSyncLoss.tx[b] = 0 ∧ m.atSyncLoss.buses[b] = { m.buses[b] with clipState := false } :=
  ⟨Vector.getElem_replicate b.isLt, Vector.getElem_ofFn b.isLt⟩

/-- R109: the LEAD of a sync loss leaves the link state and the frame in the slot. -/
theorem LinkController.leadLost_slot (l : LinkController) :
    l.leadLost.state = l.state ∧ l.leadLost.slot.map (·.frame) = l.slot.map (·.frame) := by
  have hlead := (LinkController.SameSlot.rfl (a := l)).offer .lead
  rw [LinkController.leadLost]
  split
  · exact ⟨hlead.state, hlead.frame⟩
  · exact ⟨rfl, rfl⟩

theorem LinkController.dropsOf_sameSlot (voices : Vector Voice 8) (l : LinkController) : l.SameSlot (l.dropsOf voices) := by
  have hfold : l.dropsOf voices = (((List.finRange 8).filter fun v => voices[v].eng.state.sounding).map Entry.drop).foldl
      LinkController.offer l := by
    rw [List.foldl_map]
    rfl
  rw [hfold]
  exact LinkController.foldl_offer_sameSlot _ .rfl

theorem State.lossLink_leaves (s : State) (leadFirst : Bool) : (s.lossLink leadFirst).lastVoiced = false
    ∧ (s.lossLink leadFirst).state = s.link.state
    ∧ (s.lossLink leadFirst).slot.map (·.frame) = s.link.slot.map (·.frame) := by
  cases leadFirst with
  | true =>
    have hdrops := LinkController.dropsOf_sameSlot s.voices s.link.leadLost
    obtain ⟨hstate, hframe⟩ := s.link.leadLost_slot
    exact ⟨hdrops.lastVoiced, hdrops.state.trans hstate, hdrops.frame.trans hframe⟩
  | false =>
    have hdrops := LinkController.dropsOf_sameSlot s.voices s.link
    obtain ⟨hstate, hframe⟩ := (s.link.dropsOf s.voices).leadLost_slot
    exact ⟨rfl, hstate.trans hdrops.state, hframe.trans hdrops.frame⟩

/-- Settles O10: the loss block by block, with the LEAD before the DROPs or after them. -/
theorem syncLossStopsEverything : Obligations.SyncLossStopsEverything := by
  refine ⟨fun leadFirst s hrel hsync htimer hcount hpart => ?_, fun leadFirst s hrel hsync htimer hnone => ?_⟩
  · obtain ⟨t, hexec, hap, hrel', hsettle⟩ := State.settleHop_late hrel hsync hcount hpart
    have hrunning : t.ap.syncPresent = true ∧ t.ap.monitorTimer = true := by
      rw [hap]
      exact ⟨hsync, htimer⟩
    refine ⟨t, hexec, hap, ?_⟩
    rw [exec_syncLossEvent leadFirst hrel, exec_syncLossEvent leadFirst hrel', State.monitorExpiry, State.monitorExpiry,
      if_pos ⟨hsync, htimer⟩, if_pos hrunning, hsettle]
  · have hexec : exec (.syncLossEvent leadFirst) s = .next (s.syncLoss leadFirst) := by
      rw [exec_syncLossEvent leadFirst hrel, State.monitorExpiry, if_pos ⟨hsync, htimer⟩,
        State.settleHop_idle (hnone.imp_right .inr)]
    obtain ⟨hap, hpt, hhm, hcu, hcfg, hpeers, hbm⟩ := s.lossBlocks.lossCalibration_blocks
    obtain ⟨hlast, hstate, hframe⟩ := s.lossLink_leaves leadFirst
    have hvoice (v : VoiceIx) := s.voices[v].stop_leaves
    rw [State.syncLoss_eq] at hexec
    refine ⟨_, hexec, hap, hpt, hhm, hcu, hcfg, hpeers, fun v => ?_, fun b => ?_, ?_, ?_, fun h => ?_,
      fun m h => ?_, hlast, hstate, hframe, fun drops lead hdrops hlead => ?_⟩
    · show (Vector.ofFn fun v => s.voices[v].stop.1)[v].cfg = _ ∧ (Vector.ofFn fun v => s.voices[v].stop.1)[v].eng = _
        ∧ (_ → (Vector.ofFn fun v => s.voices[v].stop.1)[v].plan = _) ∧ (_ → (Vector.ofFn fun v => s.voices[v].stop.1)[v].plan = _)
      rw [Fin.getElem_fin (Vector.ofFn _), Vector.getElem_ofFn]
      exact hvoice v
    · show s.lossBlocks.lossCalibration.bm.tx[b] = 0 ∧ s.lossBlocks.lossCalibration.bm.buses[b] = _
      rw [hbm]
      exact s.bm.atSyncLoss_get b
    · show s.lossBlocks.lossCalibration.bm.mute = _
      rw [hbm]
      rfl
    · show (s.lossBlocks.lossCalibration.sc.causes ||| 0x02).getLsbD 1 = true
      rw [BitVec.getLsbD_or, show (0x02 : BitVec 7).getLsbD 1 = true from rfl, Bool.or_true]
    · have hcal : s.lossBlocks.lossCalibration = s.lossBlocks := State.lossCalibration_of_none h
      rw [hcal]
      exact ⟨rfl, rfl, rfl⟩
    · have hcal : s.lossBlocks.lossCalibration = s.lossBlocks.abandonCalibration := State.lossCalibration_of_some h
      rw [hcal]
      refine ⟨rfl, rfl, ?_⟩
      show s.sc.causes ||| 0x20 ||| 0x02 = _
      rw [BitVec.or_assoc]
      rfl
    · obtain rfl : drops = LinkController.dropsOf s.voices := funext hdrops
      obtain rfl : lead = LinkController.leadLost := funext hlead
      rfl

end Sys2Proof.Machine
end

section
/-! PROOFS. The mixing of a sample: roundings, saturation, the buses, the clip episodes, and the bits of a slot (R150 to R153). -/

namespace Sys2Proof.Machine

/-! ## Arithmetic -/

/-- A value held within 24 bits is carried by a sample. -/
theorem saturate24_toInt (x : Int) : (saturate24 x).toInt = max (-8388608) (min 8388607 x) := by
  obtain ⟨hlo, hhi⟩ := clampInt_bounds (lo := -8388608) (hi := 8388607) (by decide) x
  rw [saturate24, BitVec.toInt_ofInt_eq_self (by decide) (by simpa using hlo) (by simp; omega)]
  rfl

/-- Conventions: a rounding to nearest, halves up. -/
theorem roundHalfUp_bounds (n : Int) {d : Nat} (hd : 0 < d) :
    (2 * roundHalfUp n d - 1) * d ≤ 2 * n ∧ 2 * n < (2 * roundHalfUp n d + 1) * d := by
  have hpos : (0 : Int) < 2 * d := by omega
  have hle : roundHalfUp n d * (2 * d) ≤ 2 * n + d := Int.ediv_mul_le _ hpos.ne'
  have hlt : 2 * n + d < (roundHalfUp n d + 1) * (2 * d) := Int.lt_ediv_add_one_mul_self _ hpos
  constructor <;> linarith

/-! ## The mixed state -/

/-- R150 step 2: the weighted samples of the voices on a bus. -/
theorem State.busSum_eq (s : State) (x : Vector Int 8) (b : BusIx) : s.busSum x b
    = (((List.finRange 8).filter fun v => s.voices[v].cfg.bus = b).map fun v =>
        roundHalfUp (x[v] * gainFactor s.voices[v].cfg.gain) 16384).sum := by
  rw [List.sum_eq_foldl, List.foldl_map]
  rfl

theorem outside24_iff (x : Int) : outside24 x = true ↔ x < -8388608 ∨ 8388607 < x := by
  rw [outside24, Bool.or_eq_true, decide_eq_true_iff, decide_eq_true_iff]

theorem outside24_eq (x : Int) : outside24 x = decide (x < -8388608 ∨ 8388607 < x) := (Bool.decide_or ..).symm

/-- R151: a bus after a sample. -/
theorem Bus.afterSample_eq (p : Prop) [Decidable p] (b : Bus) : b.afterSample (decide p) = {
    gain := b.gain
    clipState := decide p
    clipCount := if p ∧ b.clipState = false then min 255 (b.clipCount + 1) else b.clipCount } := by
  rw [Bus.afterSample]
  by_cases hp : p
  · rw [decide_eq_true hp, if_pos rfl]
    cases hclip : b.clipState with
    | true =>
      rw [if_pos rfl, if_neg fun h => Bool.false_ne_true h.2.symm, ← hclip]
    | false => rw [if_neg Bool.false_ne_true, if_pos ⟨hp, rfl⟩, bump]
  · rw [decide_eq_false hp, if_neg Bool.false_ne_true, if_neg fun h => hp h.1]

/-- R151: a voice after a sample. -/
theorem Voice.markClip_eq (p : Prop) [Decidable p] (sample : Int) (vo : Voice) : vo.markClip (decide p) sample = { vo with
    eng := { vo.eng with
      clip := vo.eng.clip || (decide p && decide (2097152 < (weighted sample vo.cfg.gain).natAbs)) } } := by
  rw [Voice.markClip, ← Bool.decide_and]
  by_cases h : p ∧ 2097152 < (weighted sample vo.cfg.gain).natAbs
  · rw [if_pos ⟨decide_eq_true h.1, h.2⟩, decide_eq_true h, Bool.or_true]
  · rw [if_neg fun hc => h ⟨of_decide_eq_true hc.1, hc.2⟩, decide_eq_false h, Bool.or_false]

/-- R150: the bus saturates at this sample. -/
def State.saturates (s : State) (x : Vector Int 8) (b : BusIx) : Bool := outside24 (s.scaledSum x b)

/-- R150 to R153: the mixing, part by part. -/
theorem State.mix_eq (s : State) (x : Vector Int 8) : s.mix x = { s with
    voices := Vector.ofFn fun v => s.voices[v].markClip (s.saturates x s.voices[v].cfg.bus) x[v]
    bm := { s.bm with
      buses := Vector.ofFn fun b => s.bm.buses[b].afterSample (s.saturates x b)
      tx := Vector.ofFn fun b => if s.bm.mute then 0 else saturate24 (s.scaledSum x b) }
    sc := if (List.finRange 4).any fun b => s.bm.buses[b].episode (s.saturates x b) then (s.raise .clip).sc else s.sc } := by
  have hsum (b : BusIx) : (Vector.ofFn fun b => s.scaledSum x b)[b] = s.scaledSum x b := Vector.getElem_ofFn b.isLt
  rw [State.mix, State.mapVoices]
  simp only [hsum]
  rw [show (fun b : BusIx => s.bm.buses[b].episode (outside24 (s.scaledSum x b)))
    = fun b => s.bm.buses[b].episode (s.saturates x b) from rfl]
  split <;> rfl

/-- R151: CLIP is raised when a bus begins an episode. -/
theorem State.mix_raises (s : State) (x : Vector Int 8) :
    ((List.finRange 4).any fun b => s.bm.buses[b].episode (s.saturates x b)) = true
      ↔ ∃ b : BusIx, (s.scaledSum x b < -8388608 ∨ 8388607 < s.scaledSum x b) ∧ s.bm.buses[b].clipState = false := by
  rw [List.any_eq_true]
  constructor
  · rintro ⟨b, -, hb⟩
    rw [Bus.episode, Bool.and_eq_true, State.saturates, outside24_iff, Bool.not_eq_true'] at hb
    exact ⟨b, hb⟩
  · rintro ⟨b, hout, hclip⟩
    refine ⟨b, List.mem_finRange b, ?_⟩
    rw [Bus.episode, Bool.and_eq_true, State.saturates, outside24_iff, Bool.not_eq_true']
    exact ⟨hout, hclip⟩

/-! ## The bits of a slot -/

/-- R153: a slot sends its sample and then 8 zeros, each most significant bit first. -/
theorem slotBits_bit (x : Sample) {i : Nat} (hi : i < 32) :
    (slotBits x).getLsbD (31 - i) = (decide (i < 24) && x.getLsbD (23 - i)) := by
  rw [slotBits, BitVec.getLsbD_append]
  by_cases h : i < 24
  · rw [if_neg (by omega), decide_eq_true h, Bool.true_and, show 31 - i - 8 = 23 - i by omega]
  · rw [if_pos (by omega), decide_eq_false h, Bool.false_and]
    exact BitVec.getLsbD_zero

/-- R153, R155: bit `n` of the frame being sent. -/
theorem AudioPort.asdo_of_lt {a : AudioPort} {tx : Vector Sample 4} {n : Nat} (hsending : a.sending = some tx) (hn : n < 128) :
    a.asdo n = (slotBits tx[n / 32]).getLsbD (31 - n % 32) := by
  rw [AudioPort.asdo, hsending]
  exact dif_pos hn

theorem AudioPort.asdo_after (a : AudioPort) {n : Nat} (hn : 128 ≤ n) : a.asdo n = false := by
  rw [AudioPort.asdo]
  split
  · exact dif_neg hn.not_gt
  · rfl

theorem AudioPort.asdo_idle {a : AudioPort} (h : a.sending = none) (n : Nat) : a.asdo n = false := by
  rw [AudioPort.asdo, h]

/-- Settles O9: the mixed state part by part, and the bit of a slot by its place. -/
theorem mixingFormsBusesAndClips : Obligations.MixingFormsBusesAndClips := by
  refine ⟨saturate24_toInt, fun n d hd => roundHalfUp_bounds n hd, fun x s => ?_, fun a n => ⟨fun tx b i hsending hn hi => ?_,
    a.asdo_after, fun h => AudioPort.asdo_idle h n⟩⟩
  · rw [State.mix_eq]
    refine ⟨fun b => ?_, fun b => Vector.getElem_ofFn b.isLt, fun b => ?_, fun v => ?_, ?_, rfl, rfl, rfl, rfl, rfl, rfl, rfl,
      rfl, rfl, ?_, rfl⟩
    · rw [State.scaledSum, State.busSum_eq]
    · refine (Vector.getElem_ofFn b.isLt).trans ?_
      show s.bm.buses[b].afterSample (outside24 _) = _
      rw [outside24_eq, Bus.afterSample_eq]
    · refine (Vector.getElem_ofFn v.isLt).trans ?_
      show s.voices[v].markClip (outside24 _) x[v] = _
      rw [outside24_eq, Voice.markClip_eq]
      rfl
    · exact if_congr (s.mix_raises x) rfl rfl
    · dsimp only
      split <;> rfl
  · have hb := b.isLt
    have hslot : n / 32 = b.val := by omega
    have hbit : n % 32 = i := by omega
    rw [AudioPort.asdo_of_lt hsending (by omega), hbit, slotBits_bit _ hi]
    simp only [hslot]
    rfl

end Sys2Proof.Machine
end

section
/-! PROOFS. The per-sample work of an engine: what each of its steps leaves, and the end tests (R132 to R134, R137 to R144). -/

namespace Sys2Proof.Machine.Voice

/-! ## What the work leaves alone -/

/-- R129, R133, R151: what a step of an engine's per-sample work keeps: the words and the clip flag, and no step enters HOLD. -/
structure Played (a b : Voice) : Prop where
  cfg : b.cfg = a.cfg
  clip : b.eng.clip = a.eng.clip
  hold : b.eng.state = .hold → a.eng.state = .hold

namespace Played

variable {a b c : Voice}

protected theorem rfl : a.Played a := ⟨rfl, rfl, id⟩

protected theorem trans (hab : a.Played b) (hbc : b.Played c) : a.Played c :=
  ⟨hbc.cfg.trans hab.cfg, hbc.clip.trans hab.clip, fun h => hab.hold (hbc.hold h)⟩

theorem addGrain (g : Grain) : a.Played { a with eng := a.eng.addGrain g } := by
  rw [Engine.addGrain_eq]
  exact ⟨rfl, rfl, id⟩

theorem starved : a.Played a.starved.1 := by
  rw [Voice.starved]
  split
  · exact ⟨rfl, rfl, id⟩
  · exact ⟨rfl, rfl, id⟩
  · exact ⟨rfl, rfl, nofun⟩
  · exact .rfl

theorem startGrain (env : RenderEnv) : a.Played (a.startGrain env).1 := by
  rw [Voice.startGrain]
  split
  · exact addGrain _
  · exact starved

theorem epochStep (env : RenderEnv) : a.Played (a.epochStep env).1 := by
  rw [Voice.epochStep]
  split
  · rw [Voice.epochDue]
    split
    · exact .trans (b := { a with eng := { a.eng with epoch := a.eng.epoch - 16 + a.eng.reload } }) ⟨rfl, rfl, id⟩
        (startGrain env)
    · exact ⟨rfl, rfl, id⟩
  · exact .rfl

theorem envelopeStep : a.Played a.envelopeStep := by
  rw [Voice.envelopeStep]
  split <;> exact ⟨rfl, rfl, id⟩

theorem attackComplete : a.Played a.attackComplete := by
  rw [Voice.attackComplete]
  split
  · exact ⟨rfl, rfl, nofun⟩
  · exact .rfl

theorem fadeEnd : a.Played a.fadeEnd := by
  rw [Voice.fadeEnd]
  split
  · refine ⟨rfl, rfl, fun h => ?_⟩
    dsimp only at h
    split at h <;> cases h
  · exact .rfl

theorem holdStep (limit : Nat) (counts : Bool) : a.Played (a.holdStep limit counts).1 := by
  rw [Voice.holdStep]
  split
  · rw [Voice.holdLimitDue]
    split
    · exact ⟨rfl, rfl, nofun⟩
    · exact ⟨rfl, rfl, id⟩
  · exact .rfl

/-- R137: the first five steps. -/
theorem untilHold (env : RenderEnv) :
    a.Played (a.epochStep env).1.envelopeStep.advanceGrains.endGrains.attackComplete.fadeEnd := by
  have hadvance (b : Voice) : b.Played b.advanceGrains.endGrains := ⟨rfl, rfl, id⟩
  exact (epochStep env).trans <| envelopeStep.trans <| (hadvance _).trans <| attackComplete.trans fadeEnd

theorem runSample (env : RenderEnv) (counts : Bool) : a.Played (a.runSample env counts).voice :=
  (untilHold env).trans (holdStep env.holdLimit counts)

end Played

/-! ## The engines that rest, and those that run -/

theorem sampleWork_of_resting {vo : Voice} (h : vo.eng.state = .off ∨ vo.eng.state = .idle) (env : RenderEnv) (counts : Bool) :
    vo.sampleWork env counts = { voice := vo, sample := 0, drop := false } := by
  rw [sampleWork]
  rcases h with h | h <;> rw [h]

theorem sampleWork_of_running {vo : Voice} (hoff : vo.eng.state ≠ .off) (hidle : vo.eng.state ≠ .idle) (env : RenderEnv)
    (counts : Bool) : vo.sampleWork env counts = vo.runSample env counts := by
  rw [sampleWork]
  split
  · exact absurd ‹_› hoff
  · exact absurd ‹_› hidle
  · rfl

theorem played_sampleWork (env : RenderEnv) (counts : Bool) (vo : Voice) : vo.Played (vo.sampleWork env counts).voice := by
  rw [sampleWork]
  split
  · exact .rfl
  · exact .rfl
  · exact .runSample env counts

/-- R140: only a starved epoch in HOLD offers a DROP. -/
theorem starved_drop {vo : Voice} (h : vo.starved.2 = true) : vo.eng.state = .hold := by
  rw [starved] at h
  split at h
  · cases h
  · cases h
  · assumption
  · cases h

theorem startGrain_drop {env : RenderEnv} {vo : Voice} (h : (vo.startGrain env).2 = true) : vo.eng.state = .hold := by
  rw [startGrain] at h
  split at h
  · cases h
  · exact starved_drop h

theorem epochStep_drop {env : RenderEnv} {vo : Voice} (h : (vo.epochStep env).2 = true) : vo.eng.state = .hold := by
  rw [epochStep] at h
  split at h
  · rw [epochDue] at h
    split at h
    · have hstart := startGrain_drop h
      exact hstart
    · cases h
  · cases h

/-- R140: an epoch leaves the state but for a starved HOLD. -/
theorem startGrain_state (env : RenderEnv) (vo : Voice) :
    (vo.startGrain env).1.eng.state = vo.eng.state ∨ (vo.startGrain env).1.eng.state = .fade := by
  rw [startGrain]
  split
  · rw [Engine.addGrain_eq]
    exact .inl rfl
  · rw [starved]
    split
    · exact .inl rfl
    · exact .inl rfl
    · exact .inr rfl
    · exact .inl rfl

/-- R133: a voice that does not stand in HOLD passes the last step. -/
theorem holdStep_of_ne {vo : Voice} (h : vo.eng.state ≠ .hold) (limit : Nat) (counts : Bool) :
    vo.holdStep limit counts = (vo, false) := if_neg fun hh => h hh.1

/-- R133, R140: only a voice in HOLD can offer a DROP at a sample. -/
theorem sampleWork_drop_of_ne {vo : Voice} (h : vo.eng.state ≠ .hold) (env : RenderEnv) (counts : Bool) :
    (vo.sampleWork env counts).drop = false := by
  have hepoch : (vo.epochStep env).2 = false := Bool.not_eq_true _ ▸ fun hdrop => h (epochStep_drop hdrop)
  have hlast : (vo.epochStep env).1.envelopeStep.advanceGrains.endGrains.attackComplete.fadeEnd.eng.state ≠ .hold :=
    fun hh => h ((Played.untilHold env).hold hh)
  rw [sampleWork]
  split
  · rfl
  · rfl
  · rw [runSample, holdStep_of_ne hlast]
    exact congrArg (· || false) hepoch

/-- R133: only the hold timer of a voice in HOLD counts. -/
theorem sampleWork_counts (env : RenderEnv) (vo : Voice) :
    vo.sampleWork env (decide (vo.eng.state = .hold)) = vo.sampleWork env true := by
  by_cases h : vo.eng.state = .hold
  · rw [decide_eq_true h]
  · have hlast : (vo.epochStep env).1.envelopeStep.advanceGrains.endGrains.attackComplete.fadeEnd.eng.state ≠ .hold :=
      fun hh => h ((Played.untilHold env).hold hh)
    rw [sampleWork, sampleWork, runSample, runSample, holdStep_of_ne hlast, holdStep_of_ne hlast]

/-! ## The steps, as they are -/

/-- R134, R138: epochs run in a voice that does not rest but for a FADE with envelope 0. -/
theorem runsEpochs_iff {e : Engine} (hoff : e.state ≠ .off) (hidle : e.state ≠ .idle) :
    e.runsEpochs = true ↔ ¬(e.state = .fade ∧ e.envelope = 0) := by
  rw [Engine.runsEpochs]
  cases h : e.state with
  | off => exact absurd h hoff
  | idle => exact absurd h hidle
  | onset => exact iff_of_true rfl nofun
  | sound => exact iff_of_true rfl nofun
  | hold => exact iff_of_true rfl nofun
  | fade => simp [VoiceState.sounding, Nat.pos_iff_ne_zero]

/-- R137 step 1, R138. -/
theorem epochStep_eq {vo : Voice} (hoff : vo.eng.state ≠ .off) (hidle : vo.eng.state ≠ .idle) (env : RenderEnv) :
    vo.epochStep env = if vo.eng.state = .fade ∧ vo.eng.envelope = 0 then (vo, false)
      else if 16 < vo.eng.epoch then ({ vo with eng := { vo.eng with epoch := vo.eng.epoch - 16 } }, false)
      else startGrain env { vo with eng := { vo.eng with epoch := vo.eng.epoch - 16 + vo.eng.reload } } := by
  have hruns := runsEpochs_iff hoff hidle
  by_cases hquiet : vo.eng.state = .fade ∧ vo.eng.envelope = 0
  · rw [if_pos hquiet]
    exact if_neg fun h => hruns.1 h hquiet
  · have hrun := hruns.2 hquiet
    rw [if_neg hquiet, epochStep, if_pos hrun]
    by_cases hepoch : 16 < vo.eng.epoch
    · rw [if_pos hepoch]
      exact if_neg fun h => absurd h.2 (by dsimp only; omega)
    · rw [if_neg hepoch]
      exact if_pos ⟨hrun, by dsimp only; omega⟩

/-- R137 step 2, R144. -/
theorem envelopeStep_eq {vo : Voice} (hoff : vo.eng.state ≠ .off) (hidle : vo.eng.state ≠ .idle) :
    vo.envelopeStep = { vo with eng := { vo.eng with
      envelope := if vo.eng.state = .fade then vo.eng.envelope - 32767 / (256 * vo.cfg.release)
        else min 32767 (vo.eng.envelope + 32767 / (256 * vo.cfg.attack)) } } := by
  rw [envelopeStep]
  split
  · rw [if_pos ‹_›]
    rfl
  · exact absurd ‹_› hoff
  · exact absurd ‹_› hidle
  · rw [if_neg ‹_›]
    rfl

/-- R138, R140: an epoch leaves an engine running. -/
theorem epochStep_running {vo : Voice} (hoff : vo.eng.state ≠ .off) (hidle : vo.eng.state ≠ .idle) (env : RenderEnv) :
    (vo.epochStep env).1.eng.state ≠ .off ∧ (vo.epochStep env).1.eng.state ≠ .idle := by
  have hstate : (vo.epochStep env).1.eng.state = vo.eng.state ∨ (vo.epochStep env).1.eng.state = .fade := by
    rw [epochStep_eq hoff hidle]
    split
    · exact .inl rfl
    · split
      · exact .inl rfl
      · exact startGrain_state env _
  rcases hstate with h | h <;> rw [h]
  · exact ⟨hoff, hidle⟩
  · exact ⟨nofun, nofun⟩

/-- R137 steps 4 and 5, R132, R134: the grains move on and the end tests follow, the envelope being at most full. -/
theorem endTests_eq {b : Voice} (hfull : b.eng.state = .onset → b.eng.envelope ≤ 32767) {left : List Grain} {ends : Bool}
    (hleft : left = (b.eng.grains.map fun g => { g with index := g.index + 1, remaining := g.remaining - 1 }).filter
      fun g => 0 < g.remaining)
    (hends : ends = decide (b.eng.state = .fade ∧ b.eng.envelope = 0 ∧ left = [])) :
    b.advanceGrains.endGrains.attackComplete.fadeEnd = { b with
      eng := { b.eng with
        grains := left
        state := if b.eng.state = .onset ∧ b.eng.envelope = 32767 then .sound
          else if ends then (if b.eng.disablePending then .off else .idle) else b.eng.state
        disablePending := b.eng.disablePending && !ends } } := by
  have hmoved : b.advanceGrains.endGrains = { b with eng := { b.eng with grains := left } } := by rw [hleft]; rfl
  rw [hmoved]
  by_cases honset : b.eng.state = .onset ∧ b.eng.envelope = 32767
  · have hnot : ends = false := hends.trans (decide_eq_false fun h => nomatch honset.1.symm.trans h.1)
    rw [if_pos honset, hnot, attackComplete, if_pos ⟨honset.1, honset.2.ge⟩, Bool.not_false, Bool.and_true]
    exact if_neg fun h => nomatch h.1
  · have hattack : attackComplete { b with eng := { b.eng with grains := left } }
        = { b with eng := { b.eng with grains := left } } :=
      if_neg fun h => honset ⟨h.1, le_antisymm (hfull h.1) h.2⟩
    rw [if_neg honset, hattack, fadeEnd]
    by_cases hfade : b.eng.state = .fade ∧ b.eng.envelope = 0 ∧ left = []
    · rw [if_pos hfade, hends, decide_eq_true hfade, Bool.not_true, Bool.and_false, if_pos rfl]
    · rw [if_neg hfade, hends, decide_eq_false hfade, Bool.not_false, Bool.and_true, if_neg Bool.false_ne_true]

/-- R137 step 6, R133. -/
theorem holdStep_eq (limit : Nat) (counts : Bool) (c : Voice) : c.holdStep limit counts
    = if c.eng.state = .hold ∧ counts = true then
        (if 256 * limit ≤ c.eng.holdTimer + 1 then
          ({ c.withoutClaim with eng := { c.eng with holdTimer := c.eng.holdTimer + 1, state := .fade } }, true)
        else ({ c with eng := { c.eng with holdTimer := c.eng.holdTimer + 1 } }, false))
      else (c, false) := by
  rw [holdStep]
  by_cases h : c.eng.state = .hold ∧ counts = true
  · rw [if_pos h, if_pos h, holdLimitDue]
    exact if_congr (and_iff_right h.1) rfl rfl
  · rw [if_neg h, if_neg h]

/-- R143: the voice sample of an engine that runs. -/
theorem output_of_running {vo : Voice} (hoff : vo.eng.state ≠ .off) (hidle : vo.eng.state ≠ .idle) (h : HistoryMemory) :
    vo.output h = max (-8388608) (min 8388607
      ((2 * ((vo.eng.grains.map (·.sample h)).sum * vo.eng.envelope) + 32768) / 65536)) := by
  rw [output, List.sum_eq_foldl, List.foldl_map]
  split
  · exact absurd ‹_› hoff
  · exact absurd ‹_› hidle
  · rfl

/-- R137: the work of an engine that runs, step by step. -/
theorem sampleWork_steps {vo : Voice} (hoff : vo.eng.state ≠ .off) (hidle : vo.eng.state ≠ .idle) (env : RenderEnv)
    (counts : Bool) {a d : Voice × Bool} {b c : Voice} (ha : a = vo.epochStep env) (hb : b = a.1.envelopeStep)
    (hc : c = b.advanceGrains.endGrains.attackComplete.fadeEnd) (hd : d = c.holdStep env.holdLimit counts) :
    vo.sampleWork env counts = { voice := d.1, sample := b.output env.history, drop := a.2 || d.2 } := by
  rw [sampleWork_of_running hoff hidle, hd, hc, hb, ha]
  rfl

end Sys2Proof.Machine.Voice

namespace Sys2Proof.Machine

/-- Settles O16: the six steps in their order, and each end test as its command takes it. -/
theorem voiceEndTestsAndHoldLimit : Obligations.VoiceEndTestsAndHoldLimit := by
  refine ⟨fun env counts vo => ⟨fun h => Voice.sampleWork_of_resting h env counts,
    fun a d b c hoff hidle ha hb hc hd => ?_⟩, fun env vo => ⟨fun m hm => ?_, fun hnone => ⟨fun h => ?_, fun h => ?_, fun h => ?_⟩⟩,
    fun h g pm hpm => ?_, fun v s hrel => ⟨?_, fun hstate henv => ?_, fun hstate henv hgrains => ?_⟩,
    fun v s hrel hstate htimer => ?_⟩
  · have ha' : a = vo.epochStep env := ha.trans (Voice.epochStep_eq hoff hidle env).symm
    obtain ⟨hrunoff, hrunidle⟩ := vo.epochStep_running hoff hidle env
    rw [← ha'] at hrunoff hrunidle
    have hwords : a.1.cfg = vo.cfg := by
      rw [ha']
      exact (Voice.Played.epochStep env).cfg
    have hb' : b = a.1.envelopeStep := by
      rw [← hwords] at hb
      rw [Voice.envelopeStep_eq hrunoff hrunidle]
      exact hb
    have hstate : b.eng.state = a.1.eng.state := by rw [hb]
    have hfull : b.eng.state = .onset → b.eng.envelope ≤ 32767 := by
      intro h
      rw [hb]
      dsimp only
      rw [if_neg fun hfade => nomatch hfade.symm.trans (hstate.symm.trans h)]
      exact Nat.min_le_left _ _
    have hc' : c = b.advanceGrains.endGrains.attackComplete.fadeEnd := by rw [Voice.endTests_eq hfull rfl rfl, hc]
    have hd' : d = c.holdStep env.holdLimit counts := by rw [Voice.holdStep_eq, hd]; rfl
    rw [Voice.sampleWork_steps hoff hidle env counts ha' hb' hc' hd', Voice.output_of_running]
    · rw [hstate]
      exact hrunoff
    · rw [hstate]
      exact hrunidle
  · rw [Voice.startGrain_of_mark hm, Engine.addGrain_eq]
    rfl
  · rw [Voice.startGrain_of_none hnone, Voice.starved_of_onset_sound h]
  · rw [Voice.startGrain_of_none hnone, Voice.starved_of_hold h]
    rfl
  · rw [Voice.startGrain_of_none hnone, Voice.starved_of_fade h]
  · subst hpm
    rfl
  · rw [exec_grainEnd v hrel]
    rfl
  · have hfull : s.voices[v].attackComplete = { s.voices[v] with eng := { s.voices[v].eng with state := .sound } } :=
      if_pos ⟨hstate, henv.ge⟩
    rw [exec_attackComplete v hrel, hfull]
  · have hends : s.voices[v].fadeEnd = { s.voices[v] with eng := { s.voices[v].eng with
        state := if s.voices[v].eng.disablePending then .off else .idle, disablePending := false } } :=
      if_pos ⟨hstate, henv, hgrains⟩
    rw [exec_fadeEnd v hrel, hends]
  · have hlimit : s.voices[v].holdLimitDue s.cfg.holdLimit = (s.voices[v].toFade, true) := if_pos ⟨hstate, htimer⟩
    rw [exec_holdLimit v hrel, hlimit]
    rfl

end Sys2Proof.Machine
end

section
/-! PROOFS. A received sample: taken, measured, rendered and mixed, with no hop at it or the hop first (R1, R2, R8, R10, R14, R133,
R137, R150). -/

namespace Sys2Proof.Machine

/-! ## The engines and the mixer -/

/-- R137: the work of the eight engines, their DROPs in index order. -/
theorem State.renderSample_eq (s : State) (counts : Vector Bool 8) : s.renderSample counts = { s with
    voices := Vector.ofFn fun v => (s.voices[v].sampleWork s.renderEnv counts[v]).voice
    link := ((List.finRange 8).filter fun v => (s.voices[v].sampleWork s.renderEnv counts[v]).drop).foldl
      (fun l v => l.offer (.drop v)) s.link } :=
  State.foldPutVoice_eq (fun v => ((s.voices[v].sampleWork s.renderEnv counts[v]).voice,
    (s.voices[v].sampleWork s.renderEnv counts[v]).drop)) s

section Mixing

variable {s u : State} (hbm : u.bm = s.bm) (hcfg : ∀ v : VoiceIx, u.voices[v].cfg = s.voices[v].cfg)

include hbm hcfg

/-- R150: the sums read the gains and the buses of the voices alone. -/
theorem State.scaledSum_congr (x : Vector Int 8) (b : BusIx) : u.scaledSum x b = s.scaledSum x b := by
  simp only [State.scaledSum, State.busSum, State.voicesOn, hbm, hcfg]

theorem State.saturates_congr (x : Vector Int 8) (b : BusIx) : u.saturates x b = s.saturates x b := by
  rw [State.saturates, State.saturates, State.scaledSum_congr hbm hcfg]

theorem State.mix_bm_congr (x : Vector Int 8) : (u.mix x).bm = (s.mix x).bm := by
  rw [State.mix_eq, State.mix_eq]
  simp only [State.saturates_congr hbm hcfg, State.scaledSum_congr hbm hcfg, hbm]

/-- R151: the mixing sets the clip flag of a voice alone, from its words and the flag before. -/
theorem State.mix_voice_congr (hclip : ∀ v : VoiceIx, u.voices[v].eng.clip = s.voices[v].eng.clip) (x : Vector Int 8)
    (v : VoiceIx) : (u.mix x).voices[v] = { u.voices[v] with
      eng := { u.voices[v].eng with clip := (s.mix x).voices[v].eng.clip } } := by
  have hget (w : State) : (w.mix x).voices[v] = w.voices[v].markClip (w.saturates x w.voices[v].cfg.bus) x[v] := by
    rw [State.mix_eq]
    exact Vector.getElem_ofFn v.isLt
  have hmark (w : State) : w.voices[v].markClip (w.saturates x w.voices[v].cfg.bus) x[v] = { w.voices[v] with
      eng := { w.voices[v].eng with
        clip := w.voices[v].eng.clip || (w.saturates x w.voices[v].cfg.bus
          && decide (2097152 < (weighted x[v] w.voices[v].cfg.gain).natAbs)) } } := by
    have h := Voice.markClip_eq (w.saturates x w.voices[v].cfg.bus = true) x[v] w.voices[v]
    rwa [Bool.decide_eq_true] at h
  rw [hget, hget, hmark, hmark, State.saturates_congr hbm hcfg, hcfg, hclip]

/-- R151: CLIP is raised by the same episodes. -/
theorem State.mix_sc_congr (x : Vector Int 8) : (u.mix x).sc
    = if (List.finRange 4).any fun b => s.bm.buses[b].episode (s.saturates x b) then (u.raise .clip).sc else u.sc := by
  rw [State.mix_eq]
  simp only [State.saturates_congr hbm hcfg, hbm]

end Mixing

theorem State.mix_sc (s : State) (x : Vector Int 8) : (s.mix x).sc
    = if (List.finRange 4).any fun b => s.bm.buses[b].episode (s.saturates x b) then (s.raise .clip).sc else s.sc :=
  State.mix_sc_congr rfl (fun _ => rfl) x

/-- R150 to R153: what the mixing of a sample leaves alone. -/
theorem State.mix_frame (s : State) (x : Vector Int 8) : (s.mix x).ap = s.ap ∧ (s.mix x).inp = s.inp ∧ (s.mix x).hm = s.hm
    ∧ (s.mix x).pt = s.pt ∧ (s.mix x).cu = s.cu ∧ (s.mix x).cfg = s.cfg ∧ (s.mix x).link = s.link
    ∧ (s.mix x).peers = s.peers ∧ (s.mix x).pending = s.pending ∧ (s.mix x).bm.mute = s.bm.mute
    ∧ (s.mix x).sc.part = s.sc.part := by
  rw [State.mix_eq]
  refine ⟨rfl, rfl, rfl, rfl, rfl, rfl, rfl, rfl, rfl, rfl, ?_⟩
  dsimp only
  split <;> rfl

/-- R137, R150: the engines' work `w` and the mixing after it, from the state `h` before them. -/
theorem State.renderAndMix_leaves (h : State) (counts : Vector Bool 8) {w : VoiceIx → SampleWork}
    (hw : ∀ v, w v = h.voices[v].sampleWork h.renderEnv counts[v]) :
    (∀ v : VoiceIx, (h.renderAndMix counts).voices[v] = { (w v).voice with
        eng := { (w v).voice.eng with clip := (h.mix (Vector.ofFn fun u => (w u).sample)).voices[v].eng.clip } })
    ∧ (h.renderAndMix counts).link = ((List.finRange 8).filter fun v => (w v).drop).foldl (fun l v => l.offer (.drop v)) h.link
    ∧ (h.renderAndMix counts).bm = (h.mix (Vector.ofFn fun u => (w u).sample)).bm
    ∧ (h.renderAndMix counts).sc = (h.mix (Vector.ofFn fun u => (w u).sample)).sc := by
  obtain rfl := funext hw
  have hvoice (v : VoiceIx) : (h.renderSample counts).voices[v] = (h.voices[v].sampleWork h.renderEnv counts[v]).voice := by
    rw [State.renderSample_eq]
    exact Vector.getElem_ofFn v.isLt
  have hbm : (h.renderSample counts).bm = h.bm := by rw [State.renderSample_eq]
  have hcfg (v : VoiceIx) : (h.renderSample counts).voices[v].cfg = h.voices[v].cfg := by
    rw [hvoice]
    exact (h.voices[v].played_sampleWork _ _).cfg
  have hclip (v : VoiceIx) : (h.renderSample counts).voices[v].eng.clip = h.voices[v].eng.clip := by
    rw [hvoice]
    exact (h.voices[v].played_sampleWork _ _).clip
  have hsc : (h.renderSample counts).sc = h.sc := by rw [State.renderSample_eq]
  obtain ⟨-, -, -, -, -, -, hlink, -⟩ := (h.renderSample counts).mix_frame (h.voiceSamples counts)
  refine ⟨fun v => ?_, ?_, State.mix_bm_congr hbm hcfg _, ?_⟩
  · rw [State.renderAndMix, State.mix_voice_congr hbm hcfg hclip, hvoice]
    rfl
  · rw [State.renderAndMix, hlink, State.renderSample_eq]
  · rw [State.renderAndMix, State.mix_sc_congr hbm hcfg, State.raise, hsc, State.mix_sc]
    rfl

/-- R137, R150: what they leave alone. -/
theorem State.renderAndMix_frame (h : State) (counts : Vector Bool 8) : (h.renderAndMix counts).ap = h.ap
    ∧ (h.renderAndMix counts).inp = h.inp ∧ (h.renderAndMix counts).hm = h.hm ∧ (h.renderAndMix counts).pt = h.pt
    ∧ (h.renderAndMix counts).cu = h.cu ∧ (h.renderAndMix counts).cfg = h.cfg ∧ (h.renderAndMix counts).peers = h.peers
    ∧ (h.renderAndMix counts).pending = h.pending := by
  obtain ⟨hap, hinp, hhm, hpt, hcu, hcfg, -, hpeers, hpending, -⟩ :=
    (h.renderSample counts).mix_frame (h.voiceSamples counts)
  rw [State.renderAndMix, hap, hinp, hhm, hpt, hcu, hcfg, hpeers, hpending, State.renderSample_eq]
  exact ⟨rfl, rfl, rfl, rfl, rfl, rfl, rfl, rfl⟩

/-! ## The sample taken -/

/-- R1, R2, R8, R10, R14: the state once a sample has been taken and a measurement it completes has ended. -/
def State.sampled (s : State) (slot : BitVec 32) : State := (s.takeSample (rawSample slot)).measurementDue

/-- R10, R11: the Input Stage and the State Controller after a taken sample, by the measurement; nothing else is the
measurement's. -/
theorem State.measurementDue_frame (s : State) : s.measurementDue.ap = s.ap ∧ s.measurementDue.hm = s.hm
    ∧ s.measurementDue.pt = s.pt ∧ s.measurementDue.cu = s.cu ∧ s.measurementDue.cfg = s.cfg
    ∧ s.measurementDue.voices = s.voices ∧ s.measurementDue.link = s.link ∧ s.measurementDue.peers = s.peers
    ∧ s.measurementDue.bm = s.bm ∧ s.measurementDue.pending = s.pending := by
  rw [State.measurementDue]
  split
  · split <;> exact ⟨rfl, rfl, rfl, rfl, rfl, rfl, rfl, rfl, rfl, rfl⟩
  · exact ⟨rfl, rfl, rfl, rfl, rfl, rfl, rfl, rfl, rfl, rfl⟩

theorem State.sampled_frame (s : State) (slot : BitVec 32) : (s.sampled slot).ap = { s.ap with
      sampleCounter := s.ap.sampleCounter + 1, hopCount := min 256 (s.ap.hopCount + 1), slotOpen := false }
    ∧ (s.sampled slot).hm = s.hm.write s.ap.sampleCounter (saturate24 ((slot.extractLsb' 8 24).toInt - s.inp.offset))
    ∧ (s.sampled slot).pt = s.pt ∧ (s.sampled slot).cu = s.cu ∧ (s.sampled slot).cfg = s.cfg
    ∧ (s.sampled slot).voices = s.voices ∧ (s.sampled slot).link = s.link ∧ (s.sampled slot).peers = s.peers
    ∧ (s.sampled slot).bm = s.bm ∧ (s.sampled slot).pending = s.pending :=
  (s.takeSample (rawSample slot)).measurementDue_frame

theorem State.sampleReceived_open {s : State} (hidle : s.settleHop = s) (hopen : s.ap.slotOpen = true)
    (hsync : s.ap.syncPresent = true) (slot : BitVec 32) (o : Option HopOrder) :
    s.sampleReceived slot o = s.receiveSample slot o := by
  rw [State.sampleReceived, hidle]
  exact if_pos ⟨hopen, hsync⟩

/-- R11: no measurement is brought to its length. -/
theorem State.sampled_of_short {s : State} (h : ∀ m, s.inp.measurement = some m → m.taken + 1 < m.length) (slot : BitVec 32) :
    (s.sampled slot).inp = s.inp.measure (slot.extractLsb' 8 24).toInt ∧ (s.sampled slot).sc = s.sc := by
  have hidle : ∀ m, (s.takeSample (rawSample slot)).inp.measurement = some m → m.taken < m.length := by
    intro m hm
    obtain ⟨m', hm', rfl⟩ := Option.map_eq_some_iff.1 hm
    exact h m' hm'
  rw [State.sampled, State.measurementDue_idle hidle]
  exact ⟨rfl, rfl⟩

/-- R11: the sample completes the measurement. -/
theorem State.sampled_of_complete {s : State} {m : Measurement} (hm : s.inp.measurement = some m) (hlen : m.length ≤ m.taken + 1)
    (slot : BitVec 32) {n : Int} (hn : n = (2 * (m.sum + (slot.extractLsb' 8 24).toInt) + m.length) / (2 * m.length)) :
    (s.sampled slot).inp = { s.inp with
      measurement := none, offset := max (-524287) (min 524287 n)
      calClamped := s.inp.calClamped || decide (524287 < n.natAbs) }
    ∧ (s.sampled slot).sc = { s.sc with
        part := .setup, causes := s.sc.causes ||| 0x20, capture := s.sc.capture.map (Capture.keepRaised .done) } := by
  have htaken : (s.takeSample (rawSample slot)).inp.measurement
      = some { m with sum := m.sum + (slot.extractLsb' 8 24).toInt, taken := m.taken + 1 } :=
    congrArg (Option.map _) hm
  rw [State.sampled, State.measurementDue_of_reached htaken hlen, hn]
  exact ⟨rfl, rfl⟩

end Sys2Proof.Machine
end

section
/-! PROOFS. A received sample: the obligation (R1, R2, R6, R8, R10, R14, R133, R137, R150 to R153). -/

namespace Sys2Proof.Machine

/-- R169: a capture in progress drops the causes raised since, in whichever order. -/
theorem Capture.keepRaised_comm (a b : Cause) (k : Capture) :
    (k.keepRaised a).keepRaised b = (k.keepRaised b).keepRaised a := by
  cases k with
  | attn clears =>
    show Capture.attn (clears &&& ~~~a.bit &&& ~~~b.bit) = Capture.attn (clears &&& ~~~b.bit &&& ~~~a.bit)
    rw [BitVec.and_assoc, BitVec.and_comm (~~~a.bit), ← BitVec.and_assoc]
  | context => rfl

/-- R11, R151: DONE and CLIP raised at one sample, the part back in SETUP. -/
theorem StateController.done_clip (c : StateController) : ({ c with
      part := .setup, causes := c.causes ||| 0x20 ||| 0x04
      capture := (c.capture.map (Capture.keepRaised .done)).map (Capture.keepRaised .clip) } : StateController)
    = { c with
      part := .setup, causes := c.causes ||| 0x04 ||| 0x20
      capture := (c.capture.map (Capture.keepRaised .clip)).map (Capture.keepRaised .done) } := by
  have hcauses : c.causes ||| 0x20 ||| 0x04 = c.causes ||| 0x04 ||| 0x20 := by
    rw [BitVec.or_assoc, BitVec.or_comm 0x20, ← BitVec.or_assoc]
  have hcapture : (c.capture.map (Capture.keepRaised .done)).map (Capture.keepRaised .clip)
      = (c.capture.map (Capture.keepRaised .clip)).map (Capture.keepRaised .done) := by
    rw [Option.map_map, Option.map_map]
    exact Option.map_congr fun k _ => k.keepRaised_comm .done .clip
  rw [hcauses, hcapture]

/-! ## A sample with no hop at it -/

/-- R137: the engines' environment at a taken sample. -/
theorem State.sampled_renderEnv (s : State) (slot : BitVec 32) : (s.sampled slot).renderEnv
    = { marks := s.pt.marks, history := (s.sampled slot).hm, holdLimit := s.cfg.holdLimit } := by
  obtain ⟨-, -, hpt, -, hcfg, -⟩ := s.sampled_frame slot
  rw [State.renderEnv, hpt, hcfg]

/-- R150: the mixing reads of a taken sample what it reads of the state before it. -/
theorem State.sampled_mix (s : State) (slot : BitVec 32) (x : Vector Int 8) :
    ((s.sampled slot).mix x).bm = (s.mix x).bm
    ∧ (∀ v : VoiceIx, ((s.sampled slot).mix x).voices[v].eng.clip = (s.mix x).voices[v].eng.clip)
    ∧ ((s.sampled slot).mix x).sc = if (List.finRange 4).any fun b => s.bm.buses[b].episode (s.saturates x b) then
        ((s.sampled slot).raise .clip).sc else (s.sampled slot).sc := by
  obtain ⟨-, -, -, -, -, hvoices, -, -, hbm, -⟩ := s.sampled_frame slot
  have hcfg (v : VoiceIx) : (s.sampled slot).voices[v].cfg = s.voices[v].cfg := by rw [hvoices]
  have hclip (v : VoiceIx) : (s.sampled slot).voices[v].eng.clip = s.voices[v].eng.clip := by rw [hvoices]
  refine ⟨State.mix_bm_congr hbm hcfg x, fun v => ?_, State.mix_sc_congr hbm hcfg x⟩
  rw [State.mix_voice_congr hbm hcfg hclip]

/-- R11, R151: the State Controller after the mixing, by the measurement. -/
theorem State.sampled_mix_sc (s : State) (slot : BitVec 32) (x : Vector Int 8) :
    ((∀ m, s.inp.measurement = some m → m.taken + 1 < m.length) → ((s.sampled slot).mix x).sc = (s.mix x).sc)
    ∧ (∀ m, s.inp.measurement = some m → m.length ≤ m.taken + 1 →
        ((s.sampled slot).mix x).sc = { (s.mix x).sc with
          part := .setup, causes := (s.mix x).sc.causes ||| 0x20
          capture := (s.mix x).sc.capture.map (Capture.keepRaised .done) }) := by
  obtain ⟨-, -, hsc⟩ := s.sampled_mix slot x
  rw [hsc, State.mix_sc, State.raise, State.raise]
  refine ⟨fun hshort => ?_, fun m hm hlen => ?_⟩
  · obtain ⟨-, hstands⟩ := State.sampled_of_short hshort slot
    rw [hstands]
  · obtain ⟨-, hdone⟩ := State.sampled_of_complete hm hlen slot rfl
    rw [hdone]
    split
    · exact s.sc.done_clip
    · rfl

/-- R133: a hop that a sample does not bring about cannot be taken at it. -/
theorem State.receiveSample_none {s : State} (hcount : s.ap.hopCount < 255) (slot : BitVec 32) (o : HopOrder) :
    s.receiveSample slot (some o) = s.receiveSample slot none := by
  obtain ⟨hap, -⟩ := s.sampled_frame slot
  have hidle : (s.sampled slot).syncedHopDue o = s.sampled slot := by
    refine State.syncedHopDue_idle (.inl ?_) o
    rw [hap]
    dsimp only
    omega
  have hwork (v : VoiceIx) : (s.sampled slot).voices[v].sampleWork (s.sampled slot).renderEnv (s.sampled slot).holdsBefore[v]
      = (s.sampled slot).voices[v].sampleWork (s.sampled slot).renderEnv (Vector.replicate 8 true)[v] := by
    have hheld : (s.sampled slot).holdsBefore[v] = decide ((s.sampled slot).voices[v].eng.state = .hold) :=
      Vector.getElem_ofFn v.isLt
    have htrue : (Vector.replicate 8 true)[v] = true := Vector.getElem_replicate v.isLt
    rw [hheld, htrue, Voice.sampleWork_counts]
  have hrender : (s.sampled slot).renderAndMix (s.sampled slot).holdsBefore
      = (s.sampled slot).renderAndMix (Vector.replicate 8 true) := by
    rw [State.renderAndMix, State.renderAndMix, State.renderSample_eq, State.renderSample_eq, State.voiceSamples,
      State.voiceSamples]
    simp only [hwork]
  show ((s.sampled slot).syncedHopDue o).renderAndMix (s.sampled slot).holdsBefore = _
  rw [hidle, hrender]
  rfl

end Sys2Proof.Machine
end

section
/-! PROOFS. A received sample: the obligation (R1, R2, R6, R8, R10, R14, R133, R137, R150 to R153). -/

namespace Sys2Proof.Machine

/-- R14: a sample's number, its conditioning and the engines' samples, as the statement has them. -/
theorem State.sampleReceived_hop {s : State} (hcount : s.ap.hopCount < 255) (slot : BitVec 32) (o : HopOrder) :
    s.sampleReceived slot (some o) = s.sampleReceived slot none := by
  rw [State.sampleReceived, State.sampleReceived, State.settleHop_idle (.inl (Nat.lt_succ_of_lt hcount)),
    State.receiveSample_none hcount]

/-- R1, R2, R8, R10, R14, R137, R150: a sample received with no hop at it. -/
theorem State.receiveSample_leaves (s : State) (slot : BitVec 32) {t : State} (ht : t = s.receiveSample slot none) :
    t.ap = { s.ap with
      sampleCounter := s.ap.sampleCounter + 1, hopCount := min 256 (s.ap.hopCount + 1), slotOpen := false }
    ∧ t.hm = (s.sampled slot).hm ∧ t.inp = (s.sampled slot).inp
    ∧ t.pt = s.pt ∧ t.cu = s.cu ∧ t.cfg = s.cfg ∧ t.peers = s.peers
    ∧ ∀ w : VoiceIx → SampleWork,
      (∀ v, w v = s.voices[v].sampleWork { marks := s.pt.marks, history := t.hm, holdLimit := s.cfg.holdLimit } true) →
      (∀ v : VoiceIx, t.voices[v] = { (w v).voice with
        eng := { (w v).voice.eng with clip := (s.mix (Vector.ofFn fun u => (w u).sample)).voices[v].eng.clip } })
      ∧ t.link = ((List.finRange 8).filter fun v => (w v).drop).foldl (fun l v => l.offer (.drop v)) s.link
      ∧ t.bm = (s.mix (Vector.ofFn fun u => (w u).sample)).bm
      ∧ t.sc = ((s.sampled slot).mix (Vector.ofFn fun u => (w u).sample)).sc := by
  obtain rfl : t = (s.sampled slot).renderAndMix (Vector.replicate 8 true) := ht
  obtain ⟨hap, hinp, hhm, hpt, hcu, hcfg, hpeers, -⟩ := (s.sampled slot).renderAndMix_frame (Vector.replicate 8 true)
  obtain ⟨hap', hhm', hpt', hcu', hcfg', hvoices, hlink, hpeers', -⟩ := s.sampled_frame slot
  refine ⟨hap.trans hap', hhm, hinp, hpt.trans hpt', hcu.trans hcu', hcfg.trans hcfg', hpeers.trans hpeers', fun w hw => ?_⟩
  have hwork (v : VoiceIx) : w v = (s.sampled slot).voices[v].sampleWork (s.sampled slot).renderEnv
      (Vector.replicate 8 true)[v] := by
    have htrue : (Vector.replicate 8 true)[v] = true := Vector.getElem_replicate v.isLt
    rw [hw, hhm, hvoices, htrue, State.sampled_renderEnv]
  obtain ⟨hvoice, hdrops, hbm, hsc⟩ := (s.sampled slot).renderAndMix_leaves (Vector.replicate 8 true) hwork
  obtain ⟨hmixbm, hmixclip, -⟩ := s.sampled_mix slot (Vector.ofFn fun u => (w u).sample)
  rw [hlink] at hdrops
  refine ⟨fun v => ?_, hdrops, hbm.trans hmixbm, hsc⟩
  rw [hvoice, hmixclip]

/-- R137: the voice samples of the engines that hear a sample. -/
theorem State.voiceSamples_all (s : State) : State.voiceSamples (Vector.replicate 8 true) s
    = Vector.ofFn fun v => (s.voices[v].sampleWork s.renderEnv true).sample := by
  have htrue (v : VoiceIx) : (Vector.replicate 8 true)[v] = true := Vector.getElem_replicate v.isLt
  rw [State.voiceSamples]
  simp only [htrue]

/-- R152: with MUTE 1 the transmit register is 0. -/
theorem State.mix_muted {s : State} (h : s.bm.mute = true) (x : Vector Int 8) (b : BusIx) : (s.mix x).bm.tx[b] = 0 := by
  rw [State.mix_eq]
  exact (Vector.getElem_ofFn b.isLt).trans (if_pos h)

theorem InputStage.measure_of_none {i : InputStage} (h : i.measurement = none) (raw : Int) : i.measure raw = i := by
  rw [InputStage.measure, h, Option.map_none, ← h]

theorem InputStage.measure_of_some {i : InputStage} {m : Measurement} (h : i.measurement = some m) (raw : Int) :
    i.measure raw = { i with measurement := some { m with sum := m.sum + raw, taken := m.taken + 1 } } := by
  rw [InputStage.measure, h, Option.map_some]

/-- R10, R11: a measurement that a sample does not complete. -/
theorem State.short_of_some {s : State} {m : Measurement} (hm : s.inp.measurement = some m) (h : m.taken + 1 < m.length) :
    ∀ k, s.inp.measurement = some k → k.taken + 1 < k.length := by
  intro k hk
  rw [hm] at hk
  obtain rfl := Option.some.inj hk
  exact h

/-- R1, R2, R8, R10, R14, R137, R150: the parts of the statement for a sample with no hop at it. -/
theorem sampleReceived_leaves {slot : BitVec 32} {s t : State} (ht : t = s.receiveSample slot none) :
    (∀ v : VoiceIx, t.voices[v].cfg = s.voices[v].cfg)
    ∧ (s.inp.measurement = none → t.inp = s.inp ∧ t.sc.part = s.sc.part)
    ∧ (∀ m, s.inp.measurement = some m → m.taken + 1 < m.length →
        t.inp = { s.inp with
          measurement := some { m with sum := m.sum + (slot.extractLsb' 8 24).toInt, taken := m.taken + 1 } }
        ∧ t.sc.part = s.sc.part)
    ∧ (∀ m, s.inp.measurement = some m → m.length ≤ m.taken + 1 →
        ∀ n : Int, n = (2 * (m.sum + (slot.extractLsb' 8 24).toInt) + m.length) / (2 * m.length) →
        t.inp = { s.inp with
          measurement := none, offset := max (-524287) (min 524287 n)
          calClamped := s.inp.calClamped || decide (524287 < n.natAbs) }
        ∧ t.sc.part = .setup)
    ∧ ((∀ v : VoiceIx, s.voices[v].eng.state ≠ .hold) → t.link = s.link)
    ∧ (∀ v : VoiceIx, s.voices[v].eng.state = .off ∨ s.voices[v].eng.state = .idle →
        t.voices[v].plan = s.voices[v].plan ∧ t.voices[v].eng = { s.voices[v].eng with clip := t.voices[v].eng.clip })
    ∧ t.bm.mute = s.bm.mute ∧ (s.bm.mute = true → ∀ b : BusIx, t.bm.tx[b] = 0) := by
  obtain ⟨-, -, hinp, -, -, -, -, hrest⟩ := s.receiveSample_leaves slot ht
  set w : VoiceIx → SampleWork := fun v =>
    s.voices[v].sampleWork { marks := s.pt.marks, history := t.hm, holdLimit := s.cfg.holdLimit } true
  obtain ⟨hvoice, hlink, hbm, hsc⟩ := hrest w fun _ => rfl
  set x : Vector Int 8 := Vector.ofFn fun u => (w u).sample
  obtain ⟨hshort, hdone⟩ := s.sampled_mix_sc slot x
  obtain ⟨-, -, -, -, -, -, -, -, -, hmute, hpart⟩ := s.mix_frame x
  have hpartOf (h : ∀ m, s.inp.measurement = some m → m.taken + 1 < m.length) : t.sc.part = s.sc.part := by
    rw [hsc, hshort h, hpart]
  refine ⟨fun v => ?_, fun h => ?_, fun m hm h => ?_, fun m hm h n hn => ?_, fun h => ?_, fun v h => ?_, ?_, fun h b => ?_⟩
  · rw [hvoice]
    exact (s.voices[v].played_sampleWork _ _).cfg
  · have hnone : ∀ m, s.inp.measurement = some m → m.taken + 1 < m.length := fun m hm => nomatch h.symm.trans hm
    refine ⟨?_, hpartOf hnone⟩
    rw [hinp, (State.sampled_of_short hnone slot).1, InputStage.measure_of_none h]
  · have hall := State.short_of_some hm h
    refine ⟨?_, hpartOf hall⟩
    rw [hinp, (State.sampled_of_short hall slot).1, InputStage.measure_of_some hm]
  · refine ⟨hinp.trans (State.sampled_of_complete hm h slot hn).1, ?_⟩
    rw [hsc, hdone m hm h]
  · have hdrops : ((List.finRange 8).filter fun v => (w v).drop) = [] :=
      List.filter_eq_nil_iff.2 fun v _ => by
        rw [show (w v).drop = false from Voice.sampleWork_drop_of_ne (h v) _ _]
        exact Bool.false_ne_true
    rw [hlink, hdrops, List.foldl_nil]
  · have hrests : w v = { voice := s.voices[v], sample := 0, drop := false } := Voice.sampleWork_of_resting h _ _
    rw [hvoice, hrests]
    exact ⟨rfl, rfl⟩
  · rw [hbm, hmute]
  · rw [hbm]
    exact State.mix_muted h x b

/-! ## A sample with a hop at it -/

/-- R69, R131, R133: the engines work on what the hop leaves, and only the voices that stood in HOLD before it count. -/
theorem State.receiveSample_hop (s : State) (slot : BitVec 32) (o : HopOrder) : s.receiveSample slot (some o)
    = ((s.sampled slot).syncedHopDue o).renderAndMix s.holdsBefore := by
  obtain ⟨-, -, -, -, -, hvoices, -⟩ := s.sampled_frame slot
  have hholds : (s.sampled slot).holdsBefore = s.holdsBefore := by rw [State.holdsBefore, State.holdsBefore, hvoices]
  rw [← hholds]
  rfl

/-- R157: a taken sample leaves the part released. -/
theorem State.sampled_released (s : State) (slot : BitVec 32) : (s.sampled slot).sc.resetHeld = s.sc.resetHeld := by
  cases hm : s.inp.measurement with
  | none => rw [(State.sampled_of_short (fun m h => nomatch hm.symm.trans h) slot).2]
  | some m =>
    by_cases hlen : m.taken + 1 < m.length
    · rw [(State.sampled_of_short (State.short_of_some hm hlen) slot).2]
    · rw [(State.sampled_of_complete hm (Nat.le_of_not_lt hlen) slot rfl).2]
      rfl

/-- R6: the hop at the 256th sample leaves its level and its record. -/
theorem State.sampled_hop {s : State} (slot : BitVec 32) (o : HopOrder) (hsync : s.ap.syncPresent = true)
    (hcount : s.ap.hopCount = 255) (hpart : s.sc.part ≠ .init) {h : State} (hh : h = (s.sampled slot).syncedHopDue o) :
    h.ap = { s.ap with sampleCounter := s.ap.sampleCounter + 1, hopCount := 0, slotOpen := false }
    ∧ h.hm = (s.sampled slot).hm ∧ h.inp.level = h.hm.hopLevel
    ∧ h.pt.record = State.hopRecord { s with hm := h.hm } h.hm.hopLevel ∧ h.cfg = s.cfg := by
  obtain ⟨hap, -, hpt, -, hcfg, -⟩ := s.sampled_frame slot
  have hsync' : (s.sampled slot).ap.syncPresent = true := by rw [hap]; exact hsync
  have hdue : 256 ≤ (s.sampled slot).ap.hopCount := by
    rw [hap]
    dsimp only
    omega
  have hpart' : (s.sampled slot).sc.part ≠ .init := by
    cases hm : s.inp.measurement with
    | none =>
      rw [(State.sampled_of_short (fun m h => nomatch hm.symm.trans h) slot).2]
      exact hpart
    | some m =>
      by_cases hlen : m.taken + 1 < m.length
      · rw [(State.sampled_of_short (State.short_of_some hm hlen) slot).2]
        exact hpart
      · rw [(State.sampled_of_complete hm (Nat.le_of_not_lt hlen) slot rfl).2]
        exact nofun
  rw [State.syncedHop_falls hsync' hdue hpart'] at hh
  obtain ⟨hap', hhm', -, hcfg', hinp', hpt', -⟩ := (s.sampled slot).tracked.syncedResult_frame o
  obtain ⟨hapT, hhmT, -, hcfgT, hinpT, hrecordT, -⟩ := (s.sampled slot).tracked_frame
  have hhm : h.hm = (s.sampled slot).hm := by rw [hh, hhm', hhmT]
  refine ⟨?_, hhm, ?_, ?_, ?_⟩
  · rw [hh, hap', hapT, hap]
  · rw [hhm, hh, hinp', hinpT]
  · rw [hhm, hh, hpt', hrecordT, State.hopRecord, State.hopRecord, hpt, hcfg]
  · rw [hh, hcfg', hcfgT, hcfg]

/-! ## The obligation -/

/-- Settles O7: the sample taken, the measurement it may complete, the engines' work and the mixing, in turn. -/
theorem sampleReceivedIsWritten : Obligations.SampleReceivedIsWritten := by
  refine ⟨saturate24_toInt, fun slot h s hrel hsync hcount hpart => ?_, fun slot s hrel hsync hopen hnone => ?_,
    fun slot o s hcount => ?_, fun slot o s hrel hsync hopen hnone => ?_, fun slot o s hrel hsync hopen hcount hpart => ?_⟩
  · obtain ⟨t, hexec, hap, hrel', hsettle⟩ := State.settleHop_late hrel hsync hcount hpart
    refine ⟨t, hexec, hap, ?_⟩
    rw [exec_sampleReceived slot h hrel, exec_sampleReceived slot h hrel', State.sampleReceived, State.sampleReceived, hsettle]
  · have hidle : s.settleHop = s := State.settleHop_idle (hnone.imp_right .inr)
    have hexec : exec (.sampleReceived slot none) s = .next (s.receiveSample slot none) := by
      rw [exec_sampleReceived slot none hrel, State.sampleReceived_open hidle hopen hsync]
    obtain ⟨hap, hhm, hinp, hpt, hcu, hcfg, hpeers, hrest⟩ := s.receiveSample_leaves slot rfl
    obtain ⟨-, hhm', -⟩ := s.sampled_frame slot
    have hparts := sampleReceived_leaves (s := s) (slot := slot) rfl
    have hmixsc := s.sampled_mix_sc slot
    generalize s.receiveSample slot none = t at *
    obtain ⟨hwords, hnone', hshort, hdone, hlink, hresting, hmute, htx⟩ := hparts
    refine ⟨t, hexec, hap, hhm.trans hhm', hpt, hcu, hcfg, hpeers, hwords, hnone', hshort, hdone, fun x hx => ?_, hlink,
      fun w hw => ?_, hresting, hmute, htx⟩
    · obtain ⟨hvoice, -, hbm, hsc⟩ := hrest _ fun _ => rfl
      obtain rfl := hx.trans (State.voiceSamples_all _)
      refine ⟨hbm, fun v => ?_, fun h => hsc.trans ((hmixsc _).1 h), fun m hm h => hsc.trans ((hmixsc _).2 m hm h)⟩
      rw [hvoice]
      rfl
    · obtain ⟨hvoice, hdrops, -⟩ := hrest w hw
      refine ⟨fun v => ?_, hdrops⟩
      rw [hvoice]
  · show Host.Outcome.next (if s.sc.resetHeld then s else s.sampleReceived slot (some o)) = _
    rw [State.sampleReceived_hop hcount]
    rfl
  · have hidle : s.settleHop = s := State.settleHop_idle (hnone.imp_right .inr)
    have hexec : exec (.sampleReceived slot (some o)) s
        = .next (((s.sampled slot).syncedHopDue o).renderAndMix s.holdsBefore) := by
      rw [exec_sampleReceived slot _ hrel, State.sampleReceived_open hidle hopen hsync, State.receiveSample_hop]
    have hmeasured : exec .measurementCompletes (s.takeSample (rawSample slot)) = .next (s.sampled slot) :=
      exec_measurementCompletes hrel
    have hhop : exec (.syncedHop o) (s.sampled slot) = .next ((s.sampled slot).syncedHopDue o) :=
      exec_syncedHop o ((s.sampled_released slot).trans hrel)
    have hheld (v : VoiceIx) : s.holdsBefore[v] = decide (s.voices[v].eng.state = .hold) := Vector.getElem_ofFn v.isLt
    generalize (s.sampled slot).syncedHopDue o = h at *
    have hleaves := fun w hw => h.renderAndMix_leaves s.holdsBefore (w := w) hw
    obtain ⟨hap, hinp, hhm, hpt, hcu, hcfg, hpeers, hpending⟩ := h.renderAndMix_frame s.holdsBefore
    generalize h.renderAndMix s.holdsBefore = t at *
    refine ⟨s.sampled slot, h, t, hmeasured, hhop, hexec, fun w hw => hleaves w fun v => ?_, hap, hinp, hhm, hpt, hcu, hcfg,
      hpeers, hpending⟩
    rw [hw, hheld]
    rfl
  · have hidle : s.settleHop = s := State.settleHop_idle (.inl (by omega))
    have hexec : exec (.sampleReceived slot (some o)) s
        = .next (((s.sampled slot).syncedHopDue o).renderAndMix s.holdsBefore) := by
      rw [exec_sampleReceived slot _ hrel, State.sampleReceived_open hidle hopen hsync, State.receiveSample_hop]
    obtain ⟨-, hhm', -⟩ := s.sampled_frame slot
    obtain ⟨hap, hhm, hlevel, hrecord, hcfg⟩ := State.sampled_hop slot o hsync hcount hpart rfl
    generalize (s.sampled slot).syncedHopDue o = h at *
    obtain ⟨hapT, hinpT, hhmT, hptT, -, hcfgT, -⟩ := h.renderAndMix_frame s.holdsBefore
    generalize h.renderAndMix s.holdsBefore = t at *
    refine ⟨t, hexec, hapT.trans hap, hhmT.trans (hhm.trans hhm'), ?_, ?_, hcfgT.trans hcfg⟩
    · rw [hinpT, hhmT, hlevel]
    · rw [hptT, hhmT, hrecord]

end Sys2Proof.Machine
end

section
/-! PROOFS. Sample numbers by their distance, and the History Memory's reads and writes (R14, R15). -/

namespace Sys2Proof.Machine

/-! ## Distances -/

/-- Conventions: the number `k` samples after `a` is at distance `k` from it. -/
theorem distance_add (a : SampleNumber) {k : Nat} (hk : k < 2147483648) : distance a (a + BitVec.ofNat 32 k) = k := by
  have hsub : a + BitVec.ofNat 32 k - a = BitVec.ofNat 32 k := by rw [BitVec.add_comm, BitVec.add_sub_cancel]
  have hnat : (BitVec.ofNat 32 k).toNat = k := by
    rw [BitVec.toNat_ofNat]
    omega
  rw [distance, hsub, BitVec.toInt_eq_toNat_of_lt (by omega), hnat]

/-- Conventions: a sample number at or after `a` is as far after it as its distance says. -/
theorem eq_add_of_distance {a b : SampleNumber} {k : Nat} (h : distance a b = k) : b = a + BitVec.ofNat 32 k := by
  have hsub : b - a = BitVec.ofNat 32 k := by
    rw [distance] at h
    rw [← BitVec.ofInt_natCast, ← h, BitVec.ofInt_toInt]
  rw [← hsub, BitVec.add_comm, BitVec.sub_add_cancel]

/-- R14: numbers less than a whole ring apart have places of their own. -/
theorem ringPlace_ne (a : SampleNumber) {k : Nat} (hpos : 0 < k) (hk : k < 4096) :
    ringPlace a ≠ ringPlace (a + BitVec.ofNat 32 k) := by
  rw [ringPlace, ringPlace, BitVec.toNat_add, BitVec.toNat_ofNat]
  omega

/-! ## Reads and writes -/

theorem HistoryMemory.held_iff (h : HistoryMemory) (n : SampleNumber) : h.held n = true
    ↔ 0 ≤ distance n h.newest ∧ distance n h.newest ≤ 4095 ∧ distance n h.newest < h.fill := by
  rw [HistoryMemory.held, HistoryMemory.retained, Bool.and_eq_true, Bool.and_eq_true, decide_eq_true_iff, decide_eq_true_iff,
    decide_eq_true_iff, and_assoc]

theorem HistoryMemory.read_of_held {h : HistoryMemory} {n : SampleNumber} (hn : h.held n = true) :
    h.read n = ringRead h.ring (ringPlace n) := if_pos hn

theorem HistoryMemory.read_of_not_held {h : HistoryMemory} {n : SampleNumber} (hn : h.held n = false) : h.read n = 0 :=
  if_neg (by rw [hn]; exact Bool.false_ne_true)

/-- R14: a write puts the sample at its place and leaves every other. -/
theorem HistoryMemory.ringRead_write {h : HistoryMemory} (hwf : h.wf) (n : SampleNumber) (x : Sample) (a : Nat) :
    ringRead (h.write n x).ring a = if a = ringPlace n then x else ringRead h.ring a := by
  obtain ⟨⟨hrising, -⟩, -⟩ := hwf
  exact ringRead_ringWrite h.ring (ringPlace n) a x hrising

/-- R15: the sample just written is held. -/
theorem HistoryMemory.held_write (h : HistoryMemory) (n : SampleNumber) (x : Sample) : (h.write n x).held n = true := by
  have hzero : distance n n = 0 := by
    rw [distance, BitVec.sub_self]
    rfl
  rw [HistoryMemory.held_iff, HistoryMemory.write_newest, HistoryMemory.write_fill, hzero]
  omega

/-- R14: a sample that is held stays held at the next write, but for the one whose place that write takes. -/
theorem HistoryMemory.held_write_next {h : HistoryMemory} {m : SampleNumber} (hm : h.held m = true)
    (hne : m ≠ h.newest - 4095) (x : Sample) :
    (h.write (h.newest + 1) x).held m = true ∧ ringPlace m ≠ ringPlace (h.newest + 1) := by
  obtain ⟨hlo, hhi, hfill⟩ := (h.held_iff m).1 hm
  obtain ⟨k, hk⟩ := Int.eq_ofNat_of_zero_le hlo
  have hnewest := eq_add_of_distance hk
  have hlast : k ≠ 4095 := by
    rintro rfl
    refine hne ?_
    rw [hnewest]
    exact (BitVec.add_sub_cancel m 4095).symm
  have hnext : h.newest + 1 = m + BitVec.ofNat 32 (k + 1) := by
    rw [hnewest, BitVec.add_assoc, BitVec.ofNat_add]
    rfl
  rw [HistoryMemory.held_iff, HistoryMemory.write_newest, HistoryMemory.write_fill, hnext, distance_add m (by omega)]
  exact ⟨by omega, ringPlace_ne m (Nat.succ_pos k) (by omega)⟩

/-- Settles O8: a write is read back at its place, and the numbers held have places of their own. -/
theorem historyReadsWhatWasWritten : Obligations.HistoryReadsWhatWasWritten := by
  refine ⟨fun h n => ⟨h.held_iff n, HistoryMemory.read_of_not_held⟩, fun h n x hwf => ?_, fun h x m hwf hm hne => ?_⟩
  · rw [HistoryMemory.read_of_held (h.held_write n x), HistoryMemory.ringRead_write hwf, if_pos rfl]
  · obtain ⟨hheld, hplace⟩ := HistoryMemory.held_write_next hm hne x
    rw [HistoryMemory.read_of_held hheld, HistoryMemory.ringRead_write hwf, if_neg hplace, HistoryMemory.read_of_held hm]

end Sys2Proof.Machine
end

section
/-! PROOFS. The mark list of a hop and the source mark (R29 to R34, R139). -/

namespace Sys2Proof.Machine

/-! ## The newest 24 marks -/

/-- R33: the newest 24 marks of a row. -/
def newestMarks (row : List Mark) : List Mark := row.drop (row.length - 24)

theorem newestMarks_of_le {row : List Mark} (h : row.length ≤ 24) : newestMarks row = row := by
  rw [newestMarks, Nat.sub_eq_zero_of_le h, List.drop_zero]

/-- R33: a mark added to the newest 24 of a row. -/
theorem addMark_newestMarks (row : List Mark) (m : Mark) : addMark (newestMarks row) m = newestMarks (row ++ [m]) := by
  have hlength : (newestMarks row).length = min 24 row.length := by
    rw [newestMarks, List.length_drop]
    omega
  rw [addMark, hlength]
  by_cases h : row.length < 24
  · rw [if_pos (by omega), newestMarks_of_le h.le, newestMarks_of_le (by rw [List.length_append, List.length_singleton]; omega)]
  · rw [if_neg (by omega), newestMarks, newestMarks, List.drop_drop, List.length_append, List.length_singleton,
      List.drop_append_of_le_length (by omega)]
    congr 2
    omega

theorem foldl_addMark_newestMarks (ms row : List Mark) :
    ms.foldl addMark (newestMarks row) = newestMarks (row ++ ms) := by
  induction ms generalizing row with
  | nil => rw [List.append_nil]; rfl
  | cons m ms ih => rw [List.foldl_cons, addMark_newestMarks, ih, List.append_assoc, List.singleton_append]

/-- R31: the row goes on from its newest mark by `k` steps, and the newest 24 marks stay. -/
theorem continueRow_eq {w : SampleNumber} {period k : Nat} {marks : List Mark} {newest : Mark} (hlen : marks.length ≤ 24)
    (hlo : ((k * wholeSamples period : Nat) : Int) ≤ distance newest.pos w)
    (hhi : distance newest.pos w < (((k + 1) * wholeSamples period : Nat) : Int)) :
    continueRow w period marks newest = newestMarks (marks ++ (List.range k).map fun i =>
      { pos := newest.pos + BitVec.ofNat 32 ((i + 1) * wholeSamples period), period := period }) := by
  have hsteps : (distance newest.pos w).toNat / wholeSamples period = k :=
    Nat.div_eq_of_lt_le (by omega) (by omega)
  rw [continueRow, hsteps, ← foldl_addMark_newestMarks, newestMarks_of_le hlen, List.foldl_map]

/-! ## The loudest sample -/

/-- The first of the greatest values among the first `n`. -/
theorem foldl_greatest (f : Nat → Nat) (n : Nat) : ∀ b, b = (List.range n).foldl (fun b j => if f b < f j then j else b) 0 →
    (0 < n → b < n) ∧ (∀ j, j < n → f j ≤ f b) ∧ ∀ j, j < b → f j < f b := by
  induction n with
  | zero =>
    rintro b rfl
    exact ⟨id, nofun, nofun⟩
  | succ n ih =>
    intro b hb
    rw [List.range_succ, List.foldl_append] at hb
    obtain ⟨hlt, hle, hfirst⟩ := ih _ rfl
    set a := (List.range n).foldl (fun b j => if f b < f j then j else b) 0
    change b = if f a < f n then n else a at hb
    by_cases hn : f a < f n
    · rw [if_pos hn] at hb
      subst hb
      refine ⟨fun _ => Nat.lt_succ_self b, fun j hj => ?_, fun j hj => (hle j hj).trans_lt hn⟩
      rcases Nat.lt_succ_iff_lt_or_eq.1 hj with hj | rfl
      · exact ((hle j hj).trans_lt hn).le
      · exact le_rfl
    · rw [if_neg hn] at hb
      subst hb
      refine ⟨fun _ => ?_, fun j hj => ?_, hfirst⟩
      · rcases Nat.eq_zero_or_pos n with rfl | hpos
        · exact Nat.zero_lt_one
        · exact (hlt hpos).trans (Nat.lt_succ_self n)
      · rcases Nat.lt_succ_iff_lt_or_eq.1 hj with hj | rfl
        · exact hle j hj
        · exact Nat.le_of_not_lt hn

/-- R32: the loudest of the newest samples, the newest of several. -/
theorem loudestBack_spec (h : HistoryMemory) {n : Nat} (hn : 0 < n) : loudestBack h n < n
    ∧ (∀ j, j < n → (h.read (h.newest - BitVec.ofNat 32 j)).toInt.natAbs
        ≤ (h.read (h.newest - BitVec.ofNat 32 (loudestBack h n))).toInt.natAbs)
    ∧ ∀ j, j < loudestBack h n → (h.read (h.newest - BitVec.ofNat 32 j)).toInt.natAbs
        < (h.read (h.newest - BitVec.ofNat 32 (loudestBack h n))).toInt.natAbs := by
  obtain ⟨hlt, hle, hfirst⟩ :=
    foldl_greatest (fun j => (h.read (h.newest - BitVec.ofNat 32 j)).toInt.natAbs) n (loudestBack h n) rfl
  exact ⟨hlt hn, hle, hfirst⟩

/-! ## The marks of a hop -/

/-- R30: the marks that age. -/
theorem markWork_unvoiced {new : PitchRecord} (h : new.voiced = false) (hm : HistoryMemory) (prev : Bool) (marks : List Mark) :
    markWork hm new prev marks = ageMarks hm.newest marks := by
  rw [markWork, h]
  rfl

/-- R32: the row starts anew when the hop before was unvoiced or no mark is left. -/
theorem markWork_starts {hm : HistoryMemory} {new : PitchRecord} {prev : Bool} {marks : List Mark} (h : new.voiced = true)
    (hnew : prev = false ∨ ageMarks hm.newest marks = []) :
    markWork hm new prev marks = startRow hm new.period (ageMarks hm.newest marks) := by
  rw [markWork, h, if_pos rfl]
  split
  case h_1 m hm' =>
    have hprev : prev = false := hnew.resolve_right fun hnil => by rw [hnil] at hm'; cases hm'
    rw [hprev, if_neg Bool.false_ne_true]
  case h_2 => rfl

/-- R31: the row goes on from its newest mark. -/
theorem markWork_continues {hm : HistoryMemory} {new : PitchRecord} {marks : List Mark} {m : Mark} (h : new.voiced = true)
    (hm' : (ageMarks hm.newest marks).getLast? = some m) :
    markWork hm new true marks = continueRow hm.newest new.period (ageMarks hm.newest marks) m := by
  rw [markWork, h, if_pos rfl, hm']
  exact if_pos rfl

/-! ## The source mark -/

theorem Mark.qualifies_iff (w : SampleNumber) (m : Mark) : m.qualifies w = true
    ↔ (wholeSamples m.period : Int) ≤ distance m.pos w ∧ distance m.pos w + wholeSamples m.period ≤ 4095 := by
  rw [Mark.qualifies, Bool.and_eq_true, decide_eq_true_iff, decide_eq_true_iff]

/-- R139: the newest mark that qualifies. -/
theorem sourceMark_eq_some_iff (w : SampleNumber) (marks : List Mark) (m : Mark) : sourceMark w marks = some m
    ↔ ∃ older newer, marks = older ++ m :: newer ∧ m.qualifies w = true ∧ ∀ n ∈ newer, ¬n.qualifies w = true := by
  rw [sourceMark, List.find?_eq_some_iff_append]
  constructor
  · rintro ⟨hm, newer, older, hsplit, hnewer⟩
    refine ⟨older.reverse, newer.reverse, ?_, hm, fun n hn => ?_⟩
    · rw [← List.reverse_reverse marks, hsplit, List.reverse_append, List.reverse_cons, List.append_assoc,
        List.singleton_append]
    · have hnot := hnewer n (List.mem_reverse.1 hn)
      rw [Bool.not_eq_true'] at hnot
      rw [hnot]
      exact Bool.false_ne_true
  · rintro ⟨older, newer, hsplit, hm, hnewer⟩
    refine ⟨hm, newer.reverse, older.reverse, ?_, fun n hn => ?_⟩
    · rw [hsplit, List.reverse_append, List.reverse_cons, List.append_assoc, List.singleton_append]
    · rw [Bool.not_eq_true']
      exact Bool.eq_false_of_not_eq_true (hnewer n (List.mem_reverse.1 hn))

theorem sourceMark_eq_none_iff (w : SampleNumber) (marks : List Mark) :
    sourceMark w marks = none ↔ ∀ n ∈ marks, ¬n.qualifies w = true := by
  rw [sourceMark, List.find?_eq_none]
  exact forall_congr' fun n => imp_congr_left List.mem_reverse

/-- Settles O15: the row by its three cases, and the source mark as the first that qualifies from the newest end. -/
theorem sourceMarkIsNewestQualifying : Obligations.SourceMarkIsNewestQualifying := by
  refine ⟨fun h new prev marks aged step hlen hstep haged => ?_, fun w marks => ⟨fun m => ?_, ?_⟩⟩
  · obtain rfl : step = wholeSamples new.period := hstep
    obtain rfl : aged = ageMarks h.newest marks := haged
    have hagedlen : (ageMarks h.newest marks).length ≤ 24 := (List.length_filter_le _ _).trans hlen
    refine ⟨fun hun => markWork_unvoiced hun h prev marks, fun hvoiced hnew width hwidth hpos => ?_,
      fun m k row hvoiced hprev hlast hlo hhi hrow => ?_⟩
    · obtain ⟨hlt, hle, hfirst⟩ := loudestBack_spec h hpos
      refine ⟨loudestBack h width, hlt, hle, hfirst, ?_⟩
      have hstart : startRow h new.period (ageMarks h.newest marks) = addMark (ageMarks h.newest marks)
          { pos := h.newest - BitVec.ofNat 32 (loudestBack h width), period := new.period } := by
        subst hwidth
        rfl
      rw [markWork_starts hvoiced hnew, hstart, addMark, List.drop_one]
    · rw [hprev, markWork_continues hvoiced hlast, continueRow_eq hagedlen hlo hhi, hrow]
      rfl
  · rw [sourceMark_eq_some_iff]
    simp only [Mark.qualifies_iff, and_assoc]
    rfl
  · rw [sourceMark_eq_none_iff]
    simp only [Mark.qualifies_iff]
    rfl

end Sys2Proof.Machine
end

section
/-! PROOFS. A built frame: its CRC bit by bit, and its fields as a receiver reads them back (R93 to R95, R172). -/

namespace Sys2Proof.Machine

/-! ## The CRC -/

/-- R95: one bit through the register. -/
theorem crcBit_eq (r : Byte) (bit : Bool) :
    crcBit r bit = if r.getLsbD 7 = bit then r <<< 1 else (r <<< 1) ^^^ 0x07 := by
  rw [crcBit, BitVec.msb_eq_getLsbD_last]
  by_cases h : r.getLsbD 7 = bit
  · rw [if_pos h, if_neg]
    rw [bne_iff_ne]
    exact not_not_intro h
  · rw [if_neg h, if_pos]
    rw [bne_iff_ne]
    exact h

/-- R95: the five bytes through the register as 40 bits. -/
theorem crcOf_eq (b0 b1 b2 b3 b4 : Byte) : crcOf b0 b1 b2 b3 b4
    = ([b0, b1, b2, b3, b4].flatMap fun b => (List.range 8).reverse.map b.getLsbD).foldl
        (fun (r : Byte) bit => if r.getLsbD 7 = bit then r <<< 1 else (r <<< 1) ^^^ 0x07) 0xFF := by
  have hbyte : crcByte = fun (r : Byte) (b : Byte) => ((List.range 8).reverse.map b.getLsbD).foldl
      (fun (r : Byte) bit => if r.getLsbD 7 = bit then r <<< 1 else (r <<< 1) ^^^ 0x07) r := by
    funext r b
    rw [crcByte, List.foldl_map, show [7, 6, 5, 4, 3, 2, 1, 0] = (List.range 8).reverse by decide]
    simp only [crcBit_eq]
  rw [crcOf, hbyte, List.foldl_flatMap]

/-! ## Fields of a byte -/

theorem toNat_byteOf {n : Nat} (h : n < 256) : (byteOf n).toNat = n := by
  rw [byteOf, BitVec.toNat_ofNat]
  exact Nat.mod_eq_of_lt h

/-- A flag of a byte, by its bit. -/
theorem getLsbD_byteOf {n i : Nat} {b : Bool} (h : n < 256) (hb : n / 2 ^ i % 2 = b.toNat) : (byteOf n).getLsbD i = b := by
  rw [BitVec.getLsbD, toNat_byteOf h, Nat.testBit_eq_decide_div_mod_eq, hb, decide_toNat_eq_one]

/-! ## Frames read back -/

/-- R93: the arbitration value gives back the kind and the station. -/
theorem arbitrationValue_reads {kind : Nat} (hkind : kind ≤ 4) (station : Station) :
    (arbitrationValue kind station).toNat / 8 = kind ∧ (arbitrationValue kind station).toNat % 8 = station.val := by
  have hstation := station.isLt
  have hnat : (arbitrationValue kind station).toNat = 8 * kind + station.val := toNat_byteOf (by omega)
  rw [hnat]
  omega

theorem frameOf_reads {b0 b1 b2 b3 b4 : Byte} {kind : Nat} (hkind : kind ≤ 4) {station : Station}
    (hb0 : b0 = arbitrationValue kind station) :
    (frameOf b0 b1 b2 b3 b4).station = station ∧ (frameOf b0 b1 b2 b3 b4).kind = kind := by
  subst hb0
  obtain ⟨hk, hs⟩ := arbitrationValue_reads hkind station
  exact ⟨Fin.ext hs, hk⟩

/-- R172: a CLAIM gives back its fields. -/
theorem claimFrame_reads (station : Station) (v : VoiceIx) (firm : Bool) (rule : Fin 4) {note : Nat} (hnote : note ≤ 255) :
    (claimFrame station v firm rule note).voice = v.val ∧ (claimFrame station v firm rule note).firm = firm
      ∧ (claimFrame station v firm rule note).note = note
      ∧ (claimFrame station v firm rule note).b1.toNat / 32 = rule.val := by
  have hv := v.isLt
  have hr := rule.isLt
  have hf := firm.toNat_le
  have hlt : v.val + flagAt firm 4 + 32 * rule.val < 256 := by
    rw [flagAt_eq]
    omega
  have hb1 : (claimFrame station v firm rule note).b1 = byteOf (v.val + flagAt firm 4 + 32 * rule.val) := rfl
  rw [LinkFrame.voice, LinkFrame.firm, LinkFrame.note, hb1, toNat_byteOf hlt]
  refine ⟨?_, getLsbD_byteOf hlt ?_, toNat_byteOf (Nat.lt_succ_of_le hnote), ?_⟩
  all_goals
    rw [flagAt_eq]
    omega

/-- R117, R172: a LEAD gives back the record and the held note. -/
theorem leadFrame_reads (station : Station) (r : PitchRecord) {held : Option Nat}
    (hheld : ∀ n, held = some n → 1 ≤ n ∧ n ≤ 127) (hconf : r.confidence ≤ 255) :
    (leadFrame station r held).leadPart = { voiced := r.voiced, held := held, confidence := r.confidence, age := 0 }
    ∧ (0 ≤ r.cents → r.cents ≤ 65535 →
      ((256 * (leadFrame station r held).b2.toNat + (leadFrame station r held).b3.toNat : Nat) : Int) = r.cents) := by
  have hf := r.voiced.toNat_le
  have hlt : flagAt r.voiced 7 + held.getD 0 % 128 < 256 := by
    rw [flagAt_eq]
    omega
  have hb1 : (leadFrame station r held).b1 = byteOf (flagAt r.voiced 7 + held.getD 0 % 128) := rfl
  have hb4 : (leadFrame station r held).b4 = byteOf r.confidence := rfl
  have hvoiced : (byteOf (flagAt r.voiced 7 + held.getD 0 % 128)).getLsbD 7 = r.voiced := getLsbD_byteOf hlt (by
    rw [flagAt_eq]
    omega)
  have hnote : (flagAt r.voiced 7 + held.getD 0 % 128) % 128 = held.getD 0 % 128 := by
    rw [flagAt_eq]
    omega
  constructor
  · rw [LinkFrame.leadPart, hb1, hb4, hvoiced, toNat_byteOf hlt, toNat_byteOf (Nat.lt_succ_of_le hconf), hnote]
    cases held with
    | none => rfl
    | some n =>
      obtain ⟨hlo, hhi⟩ := hheld n rfl
      have hmod : (some n).getD 0 % 128 = n := Nat.mod_eq_of_lt (Nat.lt_succ_of_le hhi)
      rw [hmod, if_neg (by omega)]
  · intro hlo hhi
    have hb2 : (leadFrame station r held).b2 = byteOf (r.cents.toNat / 256) := rfl
    have hb3 : (leadFrame station r held).b3 = byteOf (r.cents.toNat % 256) := rfl
    rw [hb2, hb3, toNat_byteOf (by omega), toNat_byteOf (by omega)]
    omega

/-- R120, R172: a KEY gives back the key and whether it is pinned here. -/
theorem keyFrame_reads (station : Station) (key : Key) (mode : KeyMode) : (keyFrame station key mode).keyPart
    = { pc := key.pc.val, kind := key.kind.code, pinned := decide (mode = .pinnedLocal) } := by
  have hpc := key.pc.isLt
  have hcode := key.kind.code_lt
  have hf := (decide (mode = .pinnedLocal)).toNat_le
  have hlt : key.pc.val + 16 * key.kind.code + flagAt (decide (mode = .pinnedLocal)) 7 < 256 := by
    rw [flagAt_eq]
    omega
  have hb1 : (keyFrame station key mode).b1
      = byteOf (key.pc.val + 16 * key.kind.code + flagAt (decide (mode = .pinnedLocal)) 7) := rfl
  have hpinned := getLsbD_byteOf (i := 7) (b := decide (mode = .pinnedLocal)) hlt (by
    rw [flagAt_eq]
    omega)
  rw [LinkFrame.keyPart, hb1, hpinned, toNat_byteOf hlt, flagAt_eq]
  congr 1 <;> omega

/-- R172: a HELLO gives back its two flags. -/
theorem helloFrame_reads (station : Station) (fresh resting : Bool) :
    (helloFrame station fresh resting).fresh = fresh ∧ (helloFrame station fresh resting).restingBit = resting := by
  have hf := fresh.toNat_le
  have hr := resting.toNat_le
  have hlt : flagAt fresh 0 + flagAt resting 1 < 256 := by
    rw [flagAt_eq, flagAt_eq]
    omega
  refine ⟨getLsbD_byteOf hlt ?_, getLsbD_byteOf hlt ?_⟩
  all_goals
    rw [flagAt_eq, flagAt_eq]
    omega

/-- R172: a DROP gives back its voice. -/
theorem dropFrame_reads (station : Station) (v : VoiceIx) : (dropFrame station v).voice = v.val := by
  have hv := v.isLt
  have hb1 : (dropFrame station v).b1 = byteOf v.val := rfl
  rw [LinkFrame.voice, hb1, toNat_byteOf (by omega)]
  omega

/-- R93, R94: every built frame is one of its kind, with the CRC over its first five bytes. -/
theorem buildFrame_reads (s : State) (e : Entry) : (buildFrame s e).b5
      = crcOf (buildFrame s e).b0 (buildFrame s e).b1 (buildFrame s e).b2 (buildFrame s e).b3 (buildFrame s e).b4
    ∧ (buildFrame s e).station = s.sc.station ∧ (buildFrame s e).kind = e.rank := by
  cases e with
  | drop v => exact ⟨rfl, frameOf_reads (kind := 0) (by decide) rfl⟩
  | claim v firm rule note => exact ⟨rfl, frameOf_reads (kind := 1) (by decide) rfl⟩
  | lead => exact ⟨rfl, frameOf_reads (kind := 2) (by decide) rfl⟩
  | key => exact ⟨rfl, frameOf_reads (kind := 3) (by decide) rfl⟩
  | hello fresh => exact ⟨rfl, frameOf_reads (kind := 4) (by decide) rfl⟩

/-- Settles O51: the CRC bit by bit, and the fields kind by kind. -/
theorem builtFrameReadsBack : Obligations.BuiltFrameReadsBack := by
  refine ⟨crcOf_eq, fun s e hheld hconf hnote => ?_⟩
  obtain ⟨hcrc, hstation, hkind⟩ := buildFrame_reads s e
  refine ⟨hcrc, hstation, hkind, ?_⟩
  cases e with
  | drop v => exact dropFrame_reads s.sc.station v
  | claim v firm rule note => exact claimFrame_reads s.sc.station v firm rule (hnote v firm rule note rfl)
  | lead => exact leadFrame_reads s.sc.station s.pt.record hheld hconf
  | key => exact keyFrame_reads s.sc.station s.cu.key s.cu.mode
  | hello fresh => exact helloFrame_reads s.sc.station fresh _

end Sys2Proof.Machine
end

section
/-! PROOFS. The tone tables, the snapped note, its degree and the candidates of a voice (R44, R57 to R60). -/

namespace Sys2Proof.Machine

/-! ## The tone tables -/

theorem ScaleKind.isTone_iff (kind : ScaleKind) (o : Nat) : kind.isTone o = true ↔ ∃ i : Fin 7, kind.tones[i] = o := by
  rw [ScaleKind.isTone, List.any_eq_true]
  constructor
  · rintro ⟨i, -, hi⟩
    exact ⟨i, beq_iff_eq.1 hi⟩
  · rintro ⟨i, hi⟩
    exact ⟨i, List.mem_finRange i, beq_iff_eq.2 hi⟩

/-- R57: within an octave a snapped offset is a tone of that octave at most a semitone away. -/
theorem snapOffset_spec (kind : ScaleKind) : ∀ o < 12, kind.isTone (snapOffset kind o) = true ∧ snapOffset kind o < 12
    ∧ snapOffset kind o ≤ o + 1 ∧ o ≤ snapOffset kind o + 1 := by
  cases kind <;> decide

/-- R57: no tone of a table stands twice in it. -/
theorem toneIndex_tones (kind : ScaleKind) : ∀ i : Fin 7, toneIndex kind kind.tones[i] = i.val := by
  cases kind <;> decide

/-- R57: the lowest offset is a tone of every kind. -/
theorem ScaleKind.isTone_zero (kind : ScaleKind) : kind.isTone 0 = true := by cases kind <;> decide

/-! ## The snapped note -/

/-- R57: the offset of a held note above the key. -/
def offsetAbove (key : Key) (held : Nat) : Nat := (((held : Int) - key.pc.val) % 12).toNat

theorem offsetAbove_spec (key : Key) (held : Nat) : offsetAbove key held < 12
    ∧ ((offsetAbove key held : Nat) : Int) = ((held : Int) - key.pc.val) % 12 := by
  rw [offsetAbove]
  omega

theorem snappedNote_eq (key : Key) (held : Nat) :
    snappedNote key held = held - offsetAbove key held + snapOffset key.kind (offsetAbove key held) := rfl

/-- R57: a held note that is a tone of the scale stands. -/
theorem snappedNote_of_tone {key : Key} {held : Nat} (h : key.kind.isTone (offsetAbove key held) = true) :
    snappedNote key held = held := by
  rw [snappedNote_eq, snapOffset, if_pos h]
  omega

/-- R57: one between two tones goes to the lower. -/
theorem snappedNote_of_below {key : Key} {held : Nat} (h : key.kind.isTone (offsetAbove key held) = false)
    (hbelow : key.kind.isTone (offsetAbove key held - 1) = true) : snappedNote key held = held - 1 := by
  have hpos : offsetAbove key held ≠ 0 := by
    intro hzero
    rw [hzero, key.kind.isTone_zero] at h
    cases h
  rw [snappedNote_eq, snapOffset, if_neg (by rw [h]; exact Bool.false_ne_true), if_pos hbelow]
  omega

/-- R57: one with no tone below goes to the tone above. -/
theorem snappedNote_of_above {key : Key} {held : Nat} (h : key.kind.isTone (offsetAbove key held) = false)
    (hbelow : key.kind.isTone (offsetAbove key held - 1) = false) : snappedNote key held = held + 1 := by
  rw [snappedNote_eq, snapOffset, if_neg (by rw [h]; exact Bool.false_ne_true),
    if_neg (by rw [hbelow]; exact Bool.false_ne_true)]
  omega

/-- R57: the snapped note is at most a semitone from the held note, on a tone of the scale. -/
theorem snappedNote_spec (key : Key) (held : Nat) : (snappedNote key held - held).natAbs ≤ 1
    ∧ (snappedNote key held - key.pc.val) % 12 = snapOffset key.kind (offsetAbove key held)
    ∧ key.kind.isTone ((snappedNote key held - key.pc.val) % 12).toNat = true := by
  obtain ⟨hlt, hoff⟩ := offsetAbove_spec key held
  obtain ⟨htone, hsnap, habove, hbelow⟩ := snapOffset_spec key.kind (offsetAbove key held) hlt
  have hmod : (snappedNote key held - key.pc.val) % 12 = snapOffset key.kind (offsetAbove key held) := by
    rw [snappedNote_eq]
    omega
  refine ⟨?_, hmod, ?_⟩
  · rw [snappedNote_eq]
    omega
  · rw [hmod, Int.toNat_natCast]
    exact htone

/-! ## Degrees -/

/-- R58: the absolute degree, by the place of the snapped note in the table. -/
theorem absoluteDegree_eq {key : Key} {held : Nat} {i : Fin 7}
    (h : ((key.kind.tones[i] : Nat) : Int) = (snappedNote key held - key.pc.val) % 12) :
    absoluteDegree key held = 7 * ((snappedNote key held - key.pc.val) / 12) + i.val := by
  rw [absoluteDegree, ← h, Int.toNat_natCast, toneIndex_tones]

/-- R59: the note of the degree `i` steps up in octave `q`. -/
theorem noteOfDegree_eq (key : Key) (q : Int) (i : Fin 7) :
    noteOfDegree key (7 * q + i.val) = key.pc.val + key.kind.tones[i] + 12 * q := by
  have hi := i.isLt
  have hmod : (⟨((7 * q + i.val) % 7).toNat, by omega⟩ : Fin 7) = i := Fin.ext (by dsimp only; omega)
  have hdiv : (7 * q + (i.val : Int)) / 7 = q := by omega
  rw [noteOfDegree, hdiv]
  exact congrArg (fun j : Fin 7 => (key.pc.val : Int) + (key.kind.tones[j] : Nat) + 12 * q) hmod

/-- R58, R59: no step from the snapped note's degree is the snapped note. -/
theorem noteOfDegree_absoluteDegree (key : Key) (held : Nat) :
    noteOfDegree key (absoluteDegree key held) = snappedNote key held := by
  obtain ⟨-, hmod, htone⟩ := snappedNote_spec key held
  obtain ⟨i, hi⟩ := (key.kind.isTone_iff _).1 htone
  have hplace : ((key.kind.tones[i] : Nat) : Int) = (snappedNote key held - key.pc.val) % 12 := by
    rw [hi]
    omega
  rw [absoluteDegree_eq hplace, noteOfDegree_eq, hplace]
  omega

/-- R59: seven degrees are an octave. -/
theorem noteOfDegree_add_seven (key : Key) (d : Int) : noteOfDegree key (d + 7) = noteOfDegree key d + 12 := by
  have hsplit : ∃ (q : Int) (i : Fin 7), d = 7 * q + i.val :=
    ⟨d / 7, ⟨(d % 7).toNat, by omega⟩, by dsimp only; omega⟩
  obtain ⟨q, i, rfl⟩ := hsplit
  have hnext : 7 * q + (i.val : Int) + 7 = 7 * (q + 1) + i.val := by omega
  rw [hnext, noteOfDegree_eq, noteOfDegree_eq]
  omega

/-- R60: a candidate is the folded note. -/
theorem candidate_eq (key : Key) (held : Nat) {c : VoiceConfig} (hspan : 12 ≤ c.laneSpan) (steps : Int) :
    (candidate key held c steps : Int)
      = foldIntoLane c.laneLow c.laneSpan (noteOfDegree key (absoluteDegree key held + steps)) := by
  obtain ⟨hlow, -⟩ := foldIntoLane_mem_Icc hspan c.laneLow (noteOfDegree key (absoluteDegree key held + steps))
  rw [candidate]
  omega

/-- Settles O24: finite facts about the four tables, carried through the octaves by division. -/
theorem scaleStepsReturnToSnappedNote : Obligations.ScaleStepsReturnToSnappedNote := by
  refine ⟨⟨rfl, rfl, rfl, rfl⟩, ScaleKind.isTone_iff, fun key held o ho => ?_, noteOfDegree_eq,
    fun key held rules vo hspan => ⟨_, _, candidate_eq key held hspan _, candidate_eq key held hspan _, rfl⟩,
    fun key held => ?_⟩
  · obtain rfl : o = offsetAbove key held := ho
    exact ⟨snappedNote_of_tone, snappedNote_of_below, snappedNote_of_above, fun i => absoluteDegree_eq⟩
  · obtain ⟨hnear, -, htone⟩ := snappedNote_spec key held
    exact ⟨hnear, htone, snappedNote_of_tone, noteOfDegree_absoluteDegree key held, noteOfDegree_add_seven key⟩

end Sys2Proof.Machine
end

section
/-! PROOFS. The sounding set, the contests of a hop in their order, and a voice's contest case by case (R80 to R88). -/

namespace Sys2Proof.Machine

/-! ## The sounding set -/

/-- R125: a lead sounds while it is voiced, holds a note and is at most 12 hops old. -/
theorem PeerRecord.soundingLead_iff (r : PeerRecord) (n : Nat) : (∃ k, r.soundingLead = some (n, k))
    ↔ ∃ l, r.lead = some l ∧ l.voiced = true ∧ l.held = some n ∧ l.age ≤ 12 := by
  rw [PeerRecord.soundingLead]
  cases hlead : r.lead with
  | none => exact iff_of_false nofun nofun
  | some l =>
    dsimp only
    cases hheld : l.held with
    | none =>
      refine iff_of_false nofun ?_
      rintro ⟨l', heq, -, hn, -⟩
      obtain rfl := Option.some.inj heq
      exact nomatch hheld.symm.trans hn
    | some m =>
      dsimp only
      constructor
      · rintro ⟨k, hk⟩
        split at hk
        case isTrue h =>
          obtain ⟨rfl, -⟩ := Prod.mk.inj (Option.some.inj hk)
          exact ⟨l, rfl, h.1, hheld, h.2⟩
        case isFalse => cases hk
      · rintro ⟨l', heq, hvoiced, hn, hage⟩
        obtain rfl := Option.some.inj heq
        obtain rfl := Option.some.inj (hheld.symm.trans hn)
        exact ⟨l.confidence, if_pos ⟨hvoiced, hage⟩⟩

/-- R81, R125: the note of a station's sounding lead. -/
theorem State.soundingLead_iff (s : State) (p : Station) (n : Nat) : (∃ k, s.soundingLead p = some (n, k))
    ↔ ∃ r l, s.peers[p] = some r ∧ r.lead = some l ∧ l.voiced = true ∧ l.held = some n ∧ l.age ≤ 12 := by
  rw [State.soundingLead]
  cases h : s.peers[p] with
  | none => exact iff_of_false nofun nofun
  | some r =>
    constructor
    · intro hlead
      obtain ⟨l, hl⟩ := (r.soundingLead_iff n).1 hlead
      exact ⟨r, l, rfl, hl⟩
    · rintro ⟨r', l, heq, hl⟩
      obtain rfl := Option.some.inj heq
      exact (r.soundingLead_iff n).2 ⟨l, hl⟩

theorem State.mem_peerLeadEntry (s : State) (p : Station) (e : Sounding) :
    e ∈ s.peerLeadEntry p ↔ ∃ n k, e = .peerLead p n ∧ s.soundingLead p = some (n, k) := by
  rw [State.peerLeadEntry]
  cases h : s.soundingLead p with
  | none => exact iff_of_false List.not_mem_nil nofun
  | some l =>
    obtain ⟨m, k⟩ := l
    constructor
    · intro he
      exact ⟨m, k, List.mem_singleton.1 he, rfl⟩
    · rintro ⟨n, k', rfl, heq⟩
      obtain ⟨rfl, -⟩ := Prod.mk.inj (Option.some.inj heq)
      exact List.mem_singleton_self _

theorem State.mem_peerClaimEntries (s : State) (p : Station) (e : Sounding) : e ∈ s.peerClaimEntries p
    ↔ ∃ v r c, e = .peerClaim p v c.note c.firm ∧ s.peers[p] = some r ∧ r.claims[v] = some c := by
  rw [State.peerClaimEntries]
  cases h : s.peers[p] with
  | none => exact iff_of_false List.not_mem_nil nofun
  | some r =>
    dsimp only
    rw [List.mem_filterMap]
    constructor
    · rintro ⟨v, -, hv⟩
      cases hc : r.claims[v] with
      | none =>
        rw [hc] at hv
        cases hv
      | some c =>
        rw [hc] at hv
        exact ⟨v, r, c, (Option.some.inj hv).symm, rfl, hc⟩
    · rintro ⟨v, r', c, rfl, heq, hc⟩
      obtain rfl := Option.some.inj heq
      refine ⟨v, List.mem_finRange v, ?_⟩
      rw [hc]

/-- R81: the sounding set before the first contest. -/
theorem State.mem_soundingSet (s : State) (held : Nat) (e : Sounding) : e ∈ s.soundingSet held ↔
    (∃ (p : Station) (r : PeerRecord) (l : PeerLead) (n : Nat), e = .peerLead p n ∧ s.peers[p] = some r ∧ r.lead = some l
      ∧ l.voiced = true ∧ l.held = some n ∧ l.age ≤ 12)
    ∨ (∃ (p : Station) (v : VoiceIx) (r : PeerRecord) (c : PeerClaim), e = .peerClaim p v c.note c.firm
      ∧ s.peers[p] = some r ∧ r.claims[v] = some c)
    ∨ e = .ownLead held := by
  rw [State.soundingSet, List.mem_append, List.mem_append, List.mem_flatMap, List.mem_flatMap, List.mem_singleton, or_assoc]
  refine or_congr ?_ (or_congr ?_ Iff.rfl)
  · constructor
    · rintro ⟨p, -, hp⟩
      obtain ⟨n, k, rfl, hlead⟩ := (s.mem_peerLeadEntry p e).1 hp
      obtain ⟨r, l, hr⟩ := (s.soundingLead_iff p n).1 ⟨k, hlead⟩
      exact ⟨p, r, l, n, rfl, hr⟩
    · rintro ⟨p, r, l, n, rfl, hr⟩
      obtain ⟨k, hlead⟩ := (s.soundingLead_iff p n).2 ⟨r, l, hr⟩
      exact ⟨p, List.mem_finRange p, (s.mem_peerLeadEntry p _).2 ⟨n, k, rfl, hlead⟩⟩
  · constructor
    · rintro ⟨p, -, hp⟩
      exact ⟨p, (s.mem_peerClaimEntries p e).1 hp⟩
    · rintro ⟨p, h⟩
      exact ⟨p, List.mem_finRange p, (s.mem_peerClaimEntries p e).2 h⟩

/-! ## The contests in their order -/

/-- R82: of the voices given, in ascending order, each has its contest against the set and the notes decided before it. -/
theorem State.contestFrom_get (s : State) {vs : List VoiceIx} (hvs : vs.Pairwise (· < ·)) (set : List Sounding)
    (voices : Vector Voice 8) : ∀ w ∈ vs, (s.contestFrom vs set voices)[w]
      = s.contestVoice (set ++ (vs.filter (· < w)).flatMap fun u => (s.contestFrom vs set voices)[u].ownEntry u) voices[w] := by
  induction vs generalizing set voices with
  | nil => exact fun w hw => nomatch hw
  | cons v vs ih =>
    obtain ⟨hfirst, hvs'⟩ := List.pairwise_cons.1 hvs
    have hrest := (s.contestFrom_spec vs hvs' (set ++ (s.contestVoice set voices[v]).ownEntry v)
      (voices.set v (s.contestVoice set voices[v]))).1
    have hself : (s.contestFrom (v :: vs) set voices)[v] = s.contestVoice set voices[v] := by
      rw [State.contestFrom, hrest v fun hmem => (hfirst v hmem).false]
      exact Vector.getElem_set_self v.isLt
    intro w hw
    rcases List.mem_cons.1 hw with rfl | hw
    · have hnone : (w :: vs).filter (· < w) = [] := List.filter_eq_nil_iff.2 fun u hu => by
        rw [decide_eq_true_iff]
        rcases List.mem_cons.1 hu with rfl | hu
        · exact lt_irrefl u
        · exact (hfirst u hu).asymm
      rw [hself, hnone, List.flatMap_nil, List.append_nil]
    · have hbefore : (v :: vs).filter (· < w) = v :: vs.filter (· < w) :=
        List.filter_cons_of_pos (by rw [decide_eq_true_iff]; exact hfirst w hw)
      have hother : (voices.set v (s.contestVoice set voices[v]))[w] = voices[w] :=
        Vector.getElem_set_ne v.isLt w.isLt (Fin.val_ne_of_ne (hfirst w hw).ne)
      rw [hbefore, List.flatMap_cons, hself, ← List.append_assoc]
      have hnext := ih hvs' (set ++ (s.contestVoice set voices[v]).ownEntry v)
        (voices.set v (s.contestVoice set voices[v])) w hw
      rw [hother] at hnext
      exact hnext

/-- R82: every voice in index order, against the notes decided before it. -/
theorem State.contestAll_get (s : State) (held : Nat) (v : VoiceIx) : (s.contestAll held).voices[v]
    = s.contestVoice (s.soundingSet held ++ ((List.finRange 8).filter (· < v)).flatMap fun u =>
        (s.contestAll held).voices[u].ownEntry u) s.voices[v] :=
  s.contestFrom_get (List.pairwise_lt_finRange 8) (s.soundingSet held) s.voices v (List.mem_finRange v)

/-! ## One voice's contest -/

namespace Voice

/-- R86, R87: the contest of a voice whose on-alternate flag and free count are 0. -/
theorem contestPrimary_plan (double alternatePasses : Bool) {vo : Voice} (hon : vo.plan.onAlternate = false)
    (hfree : vo.plan.freeCount = 0) :
    (vo.contestPrimary double true alternatePasses).plan = { vo.plan with decided := vo.plan.primary, doubled := false }
    ∧ (vo.contestPrimary double false true).plan
        = { vo.plan with decided := vo.plan.alternate, onAlternate := true, doubled := false }
    ∧ (vo.contestPrimary false false false).plan = { vo.plan with decided := none }
    ∧ (vo.contestPrimary true false false).plan = { vo.plan with decided := vo.plan.primary, doubled := true }
    ∧ (vo.contestPrimary double false alternatePasses).eng = vo.eng := by
  have heng : (vo.contestPrimary double false alternatePasses).eng = vo.eng := by
    cases alternatePasses with
    | true => rfl
    | false => cases double <;> rfl
  obtain ⟨cfg, ⟨primary, alternate, decided, cents, shift, period, claim, onAlternate, freeCount, doubled, refreshCount⟩, eng⟩ :=
    vo
  obtain rfl : onAlternate = false := hon
  obtain rfl : freeCount = 0 := hfree
  exact ⟨rfl, rfl, rfl, rfl, heng⟩

/-- R88: a claimed voice on its alternate returns when its free count has reached SETTLE. -/
theorem returnDue_of_claimed {vo : Voice} (hclaim : vo.plan.claim ≠ none) (hon : vo.plan.onAlternate = true) (settle : Nat) :
    vo.returnDue settle = decide (settle ≤ vo.plan.freeCount) := by
  rw [returnDue, Option.isSome_iff_ne_none.2 hclaim, hon, Bool.and_true, Bool.true_and]

/-- R88: the primary passes again, and its free count brings the return. -/
theorem contestAlternate_returns {settle : Nat} (double alternatePasses : Bool) {vo : Voice} (hclaim : vo.plan.claim ≠ none)
    (hon : vo.plan.onAlternate = true) (hsettle : settle ≤ vo.plan.freeCount + 1) :
    vo.contestAlternate settle double true alternatePasses
      = takePrimary { vo with plan := { vo.plan with freeCount := vo.plan.freeCount + 1 } } := by
  have hdue : returnDue settle { vo with plan := { vo.plan with freeCount := vo.plan.freeCount + 1 } } = true :=
    (returnDue_of_claimed (vo := { vo with plan := { vo.plan with freeCount := vo.plan.freeCount + 1 } }) hclaim hon
      settle).trans (decide_eq_true hsettle)
  rw [contestAlternate, if_pos rfl]
  exact if_pos hdue

/-- R88: the primary passes again, before the return. -/
theorem contestAlternate_waits {settle : Nat} (double alternatePasses : Bool) {vo : Voice} (hclaim : vo.plan.claim ≠ none)
    (hon : vo.plan.onAlternate = true) (hsettle : vo.plan.freeCount + 1 < settle) :
    vo.contestAlternate settle double true alternatePasses
      = if alternatePasses then
          takeAlternate (vo.plan.freeCount + 1) { vo with plan := { vo.plan with freeCount := vo.plan.freeCount + 1 } }
        else takePrimary { vo with plan := { vo.plan with freeCount := vo.plan.freeCount + 1 } } := by
  have hdue : returnDue settle { vo with plan := { vo.plan with freeCount := vo.plan.freeCount + 1 } } = false :=
    (returnDue_of_claimed (vo := { vo with plan := { vo.plan with freeCount := vo.plan.freeCount + 1 } }) hclaim hon
      settle).trans (decide_eq_false hsettle.not_ge)
  rw [contestAlternate, if_pos rfl]
  exact if_neg (by rw [hdue]; exact Bool.false_ne_true)

/-- R88: the five rows of the anti-flutter table. -/
theorem contestAlternate_plan (settle : Nat) (double : Bool) {vo : Voice} (hclaim : vo.plan.claim ≠ none)
    (hon : vo.plan.onAlternate = true) :
    (∀ alternatePasses : Bool, settle ≤ vo.plan.freeCount + 1 →
      (vo.contestAlternate settle double true alternatePasses).plan
        = { vo.plan with decided := vo.plan.primary, onAlternate := false, freeCount := 0, doubled := false })
    ∧ (vo.plan.freeCount + 1 < settle →
      (vo.contestAlternate settle double true true).plan
        = { vo.plan with decided := vo.plan.alternate, freeCount := vo.plan.freeCount + 1, doubled := false })
    ∧ (vo.plan.freeCount + 1 < settle →
      (vo.contestAlternate settle double true false).plan
        = { vo.plan with decided := vo.plan.primary, onAlternate := false, freeCount := 0, doubled := false })
    ∧ ((vo.contestAlternate settle double false true).plan
        = { vo.plan with decided := vo.plan.alternate, freeCount := 0, doubled := false })
    ∧ ((vo.contestAlternate settle false false false).plan
        = { vo.plan with decided := none, onAlternate := false, freeCount := 0 })
    ∧ ((vo.contestAlternate settle true false false).plan
        = { vo.plan with decided := vo.plan.primary, onAlternate := false, freeCount := 0, doubled := true }) := by
  refine ⟨fun alternatePasses h => ?_, fun h => ?_, fun h => ?_, ?_, rfl, rfl⟩
  · rw [contestAlternate_returns double alternatePasses hclaim hon h]
    rfl
  · rw [contestAlternate_waits double true hclaim hon h, if_pos rfl, takeAlternate, ← hon]
  · rw [contestAlternate_waits double false hclaim hon h, if_neg Bool.false_ne_true]
    rfl
  · have hloses : vo.contestAlternate settle double false true = vo.takeAlternate 0 := rfl
    rw [hloses, takeAlternate, ← hon]

/-- R80: the voices that are contested. -/
theorem contested_iff (part : PartState) (voiced : Bool) (vo : Voice) :
    vo.contested part voiced = true ↔ vo.plan.claim ≠ none ∨ (part = .live ∧ voiced = true
      ∧ (vo.eng.state = .idle ∨ (vo.eng.state = .fade ∧ vo.eng.disablePending = false))) := by
  rw [contested, Bool.or_eq_true, Bool.and_eq_true, Bool.and_eq_true, Bool.or_eq_true, Bool.and_eq_true,
    decide_eq_true_iff, decide_eq_true_iff, decide_eq_true_iff, Bool.not_eq_true', and_assoc, Option.isSome_iff_ne_none]

end Voice

/-- R80, R86, R88: which contest a voice has. -/
theorem State.contestVoice_eq (s : State) (set : List Sounding) (vo : Voice) {double primary alternate : Bool}
    (hdouble : double = s.cfg.rules[vo.cfg.rule].double)
    (hprimary : primary = vo.plan.primary.any (passes s.cfg.collideClass s.sc.station set vo))
    (halternate : alternate = vo.plan.alternate.any (passes s.cfg.collideClass s.sc.station set vo)) :
    s.contestVoice set vo = if vo.contested s.sc.part s.pt.record.voiced then
        if vo.plan.claim ≠ none ∧ vo.plan.onAlternate = true then vo.contestAlternate s.cfg.settle double primary alternate
        else vo.contestPrimary double primary alternate
      else { vo with plan := { vo.plan with decided := none } } := by
  subst hdouble hprimary halternate
  rw [State.contestVoice]
  refine if_congr Iff.rfl ?_ rfl
  exact if_congr (and_congr_left fun _ => Option.isSome_iff_ne_none) rfl rfl

end Sys2Proof.Machine
end

section
/-! PROOFS. Target, glide, shift and period of a voice, and the obligation on the contests of a hop (R55, R56, R62 to R67, R80 to
R88). -/

namespace Sys2Proof.Machine

/-! ## Target and glide -/

/-- R62: the target, halves away from zero. -/
theorem targetCents_of_nonneg (note : Nat) {d : Int} (follow : Nat) (hd : 0 ≤ d) :
    targetCents note d follow = 100 * note + (2 * (d * follow) + 100) / 200 := by
  have hprod : ¬d * follow < 0 := (mul_nonneg hd (Int.natCast_nonneg follow)).not_gt
  rw [targetCents, roundHalfAway, if_neg hprod]
  rfl

theorem targetCents_of_nonpos (note : Nat) {d : Int} (follow : Nat) (hd : d ≤ 0) :
    targetCents note d follow = 100 * note - (2 * (-d * follow) + 100) / 200 := by
  have hneg : -d * (follow : Int) = -(d * follow) := Int.neg_mul d follow
  have hprod : d * (follow : Int) ≤ 0 := mul_nonpos_of_nonpos_of_nonneg hd (Int.natCast_nonneg follow)
  rw [targetCents, roundHalfAway, hneg]
  generalize d * (follow : Int) = x at hprod
  split <;> omega

/-- R64: the glide reaches the target. -/
theorem glideTo_reaches {glide : Nat} {target c : Int} (h : glide = 0 ∨ |target - c| ≤ glide) : glideTo glide target c = target :=
  if_pos h

theorem glideTo_rises {glide : Nat} {target c : Int} (hg : 0 < glide) (h : c + glide < target) :
    glideTo glide target c = c + glide := by
  have hfar : (glide : Int) < |target - c| := lt_abs.2 (.inl (by omega))
  rw [glideTo, if_neg (not_or.2 ⟨hg.ne', hfar.not_ge⟩), if_pos (by omega)]

theorem glideTo_falls {glide : Nat} {target c : Int} (hg : 0 < glide) (h : target < c - glide) :
    glideTo glide target c = c - glide := by
  have hfar : (glide : Int) < |target - c| := lt_abs.2 (.inr (by omega))
  rw [glideTo, if_neg (not_or.2 ⟨hg.ne', hfar.not_ge⟩), if_neg (by omega)]

/-! ## Shift and period -/

/-- R65, R66: the shift and the period, each clamped. -/
theorem Voice.withShift_eq (pair : VoicedPair) (c : Int) (vo : Voice) {shift : Int} {exact : Nat}
    (hshift : shift = max (-1900) (min 1900 (c - pair.cents))) (hexact : exact = synthesisPeriod pair.period shift) :
    vo.withShift pair c = { vo with
      plan := { vo.plan with cents := c, shift := shift, period := max 320 (min 25600 exact) }
      eng := { vo.eng with
        rangeClamp := vo.eng.rangeClamp
          || decide (c - pair.cents < -1900 ∨ 1900 < c - pair.cents ∨ exact < 320 ∨ 25600 < exact) } } := by
  have hclamps : (decide (shift ≠ c - pair.cents) || decide (max 320 (min 25600 exact) ≠ exact))
      = decide (c - pair.cents < -1900 ∨ 1900 < c - pair.cents ∨ exact < 320 ∨ 25600 < exact) := by
    rw [← Bool.decide_or]
    exact decide_eq_decide.2 (by omega)
  rw [← hclamps, ← Bool.or_assoc]
  subst hexact hshift
  rfl

theorem Voice.computeShift_of_none {vo : Voice} (h : vo.plan.decided = none) (rules : Vector IntervalRule 4) (d : Int)
    (pair : VoicedPair) (voiced : Bool) : vo.computeShift rules d pair voiced = vo := by
  rw [Voice.computeShift, h]

/-- R63, R67: with a decided note, by whether the voice enters ONSET or sounds. -/
theorem Voice.computeShift_of_some {vo : Voice} {n : Nat} (h : vo.plan.decided = some n) (rules : Vector IntervalRule 4) (d : Int)
    (pair : VoicedPair) (voiced : Bool) : vo.computeShift rules d pair voiced
      = if vo.willEnter voiced then vo.withShift pair (targetCents n d rules[vo.cfg.rule].follow)
        else if vo.eng.state.sounding then
          vo.withShift pair (glideTo rules[vo.cfg.rule].glide (targetCents n d rules[vo.cfg.rule].follow) vo.plan.cents)
        else vo := by
  rw [Voice.computeShift, h]

theorem Voice.willEnter_iff (voiced : Bool) (vo : Voice) :
    vo.willEnter voiced = true ↔ voiced = true ∧ (vo.eng.state = .idle ∨ vo.eng.state = .fade) := by
  rw [Voice.willEnter, Bool.and_eq_true, Bool.or_eq_true, decide_eq_true_iff, decide_eq_true_iff]

/-- R63: a voice that rests keeps its values. -/
theorem Voice.computeShift_idle {voiced : Bool} {vo : Voice} (h : vo.plan.decided = none ∨ vo.eng.state = .off
      ∨ (voiced = false ∧ (vo.eng.state = .idle ∨ vo.eng.state = .fade))) (rules : Vector IntervalRule 4) (d : Int)
    (pair : VoicedPair) : vo.computeShift rules d pair voiced = vo := by
  cases hn : vo.plan.decided with
  | none => exact Voice.computeShift_of_none hn rules d pair voiced
  | some n =>
    have hstill : ¬vo.willEnter voiced = true ∧ ¬vo.eng.state.sounding = true := by
      rw [Voice.willEnter_iff]
      rcases h with h | h | ⟨hun, h⟩
      · exact nomatch hn.symm.trans h
      · rw [h]
        exact ⟨fun hw => hw.2.elim nofun nofun, Bool.false_ne_true⟩
      · rw [hun]
        refine ⟨fun hw => Bool.false_ne_true hw.1, ?_⟩
        rcases h with h | h <;> rw [h] <;> exact Bool.false_ne_true
    rw [Voice.computeShift_of_some hn, if_neg hstill.1, if_neg hstill.2]

/-- R63 to R66: a voice that enters ONSET starts on its target, and one that sounds glides to it. -/
theorem Voice.computeShift_moves {voiced : Bool} {vo : Voice} {n : Nat} {target c : Int} (hn : vo.plan.decided = some n)
    (rules : Vector IntervalRule 4) (d : Int) (pair : VoicedPair)
    (htarget : target = targetCents n d rules[vo.cfg.rule].follow)
    (h : (voiced = true ∧ (vo.eng.state = .idle ∨ vo.eng.state = .fade) ∧ c = target)
      ∨ (vo.eng.state.sounding = true ∧ c = glideTo rules[vo.cfg.rule].glide target vo.plan.cents)) :
    vo.computeShift rules d pair voiced = vo.withShift pair c := by
  rw [Voice.computeShift_of_some hn, ← htarget]
  rcases h with ⟨hvoiced, hstate, rfl⟩ | ⟨hsounds, rfl⟩
  · exact if_pos ((Voice.willEnter_iff ..).2 ⟨hvoiced, hstate⟩)
  · have hstill : ¬vo.willEnter voiced = true := by
      rw [Voice.willEnter_iff]
      rintro ⟨-, hstate⟩
      rcases hstate with h | h <;> rw [h] at hsounds <;> exact Bool.false_ne_true hsounds
    rw [if_neg hstill, if_pos hsounds]

/-- Settles O26: the sounding set by origin, the contests in index order, and each table row by row. -/
theorem contestOutcomes : Obligations.ContestOutcomes := by
  refine ⟨State.mem_soundingSet, fun s held => ⟨rfl, s.contestAll_get held⟩,
    fun s => ⟨State.planVoices_of_none, fun n c hn hc => ?_⟩,
    fun double alternatePasses vo => Voice.contestPrimary_plan double alternatePasses,
    fun settle double vo => Voice.contestAlternate_plan settle double, Voice.contested_iff,
    fun s set vo double primary alternate => s.contestVoice_eq set vo,
    fun note d follow => ⟨targetCents_of_nonneg note follow, targetCents_of_nonpos note follow⟩,
    fun glide target c => ⟨glideTo_reaches, glideTo_rises, glideTo_falls⟩,
    fun rules d pair voiced vo => ⟨fun h => Voice.computeShift_idle h rules d pair,
      fun n target c shift exact hn htarget hc hshift hexact => ?_⟩⟩
  · rw [s.planVoices_eq_of_some hn, hc]
    rfl
  · rw [Voice.computeShift_moves hn rules d pair htarget hc, Voice.withShift_eq pair c vo hshift hexact]

end Sys2Proof.Machine
end
